-- ==== Sys2Proof/Word.lean ====
section
/-! DEFINITION. The widths the spec gives to bits: bytes of data memory, command words, and the fields of a command
word (30_encoding.md R101, R102, R112). -/

namespace Sys2Proof

/-- One byte of data memory (R49). -/
abbrev Byte := BitVec 8

/-- One 32-bit command word, and the width of every control and status register (R100, section 8 of 10_state.md). -/
abbrev Word := BitVec 32

/-- A 6-bit field that names an integer register, or holds a count minus one or a Frobenius power (R102, R103). -/
abbrev Field6 := BitVec 6

/-- A register number: field value i names x[i] (R102). -/
abbrev RegIx := BitVec 6

/-- An 18-bit immediate (R103). -/
abbrev Imm18 := BitVec 18

/-- A 12-bit byte offset (R103). -/
abbrev Imm12 := BitVec 12

/-- A modular-context number c (R112). -/
abbrev CtxIx := BitVec 2

/-- A tower-level number t (R112). -/
abbrev TwrIx := BitVec 3

/-- A curve number i (R112). -/
abbrev CrvIx := BitVec 2

/-- A precomputation slot number s (R112). -/
abbrev SlotIx := BitVec 2

end Sys2Proof
end

