-- ==== Sys2Proof/Syntax.lean ====
section
/-! DEFINITION. The 88 commands of the opcode map (30_encoding.md R104), one constructor each, with the fields of the
command word that the map names. Operands stand in the order of the assembler column. -/

namespace Sys2Proof

/-- The flag selector of BS and BC: 0 = C, 1 = Z, 2 = L, 3 = T (R133). -/
inductive Flag where
  | c | z | l | t
deriving DecidableEq, Repr

/-- The reduction strategy of CTXDEF: 0 = Montgomery, 1 = Barrett (R180). -/
inductive Strategy where
  | mont | barr
deriving DecidableEq, Repr

/-- The extension degree of TWRDEF, coded as degree minus 2 (R242). -/
inductive Degree where
  | quadratic | cubic
deriving DecidableEq, Repr

/-- A field designator of TWRDEF and CRVDEF: a kind bit (`tower`) and a 3-bit number (R112). With kind 0 only the
numbers 0 to 3 are legal; `Instr.wellFormed` says so and the command checks it. -/
structure FieldSel where
  tower : Bool
  num : BitVec 3
deriving DecidableEq, Repr

/-- The commands of the engine. -/
inductive Instr where
  -- 40_control_move.md
  /-- `NOP`, opcode 0x00 (R130). -/
  | nop
  /-- `HALT`, opcode 0x01 (R131). -/
  | halt
  /-- `JMP target`, opcode 0x02 (R132). -/
  | jmp (target : Imm18)
  /-- `BS flag, target`, opcode 0x03 (R133). -/
  | bs (flag : Flag) (target : Imm18)
  /-- `BC flag, target`, opcode 0x04 (R134). -/
  | bc (flag : Flag) (target : Imm18)
  /-- `LI xd, imm`, opcode 0x05 (R135). -/
  | li (rd : RegIx) (imm : Imm18)
  /-- `MOV xd, xs, n`, opcode 0x06 (R136). -/
  | mov (rd : RegIx) (rs1 : RegIx) (cnt : Field6)
  /-- `LD xd, imm(xs1)`, opcode 0x07 (R137). -/
  | ld (rd : RegIx) (rs1 : RegIx) (imm : Imm12)
  /-- `ST xs, imm(xs1)`, opcode 0x08 (R138). -/
  | st (rd : RegIx) (rs1 : RegIx) (imm : Imm12)
  /-- `MOVAL xd`, opcode 0x09 (R139). -/
  | moval (rd : RegIx)
  /-- `MOVAH xd`, opcode 0x0A (R140). -/
  | movah (rd : RegIx)
  /-- `SETAL xs`, opcode 0x0B (R141). -/
  | setal (rs1 : RegIx)
  /-- `SETAH xs`, opcode 0x0C (R142). -/
  | setah (rs1 : RegIx)
  /-- `CSRR xd, csr`, opcode 0x0D (R143). -/
  | csrr (rd : RegIx) (csr : Imm18)
  /-- `CSRW csr, xs`, opcode 0x0E (R144). -/
  | csrw (rd : RegIx) (csr : Imm18)
  -- 41_integer.md
  /-- `ADD xd, xs1, xs2`, opcode 0x10 (R161). -/
  | add (rd : RegIx) (rs1 : RegIx) (rs2 : RegIx)
  /-- `SUB xd, xs1, xs2`, opcode 0x11 (R162). -/
  | sub (rd : RegIx) (rs1 : RegIx) (rs2 : RegIx)
  /-- `MUL xs1, xs2`, opcode 0x12 (R163). -/
  | mul (rs1 : RegIx) (rs2 : RegIx)
  /-- `SHL1 xd, xs1`, opcode 0x13 (R164). -/
  | shl1 (rd : RegIx) (rs1 : RegIx)
  /-- `SHR1 xd, xs1`, opcode 0x14 (R165). -/
  | shr1 (rd : RegIx) (rs1 : RegIx)
  /-- `SHL xd, xs1, xs2`, opcode 0x15 (R166). -/
  | shl (rd : RegIx) (rs1 : RegIx) (rs2 : RegIx)
  /-- `SHR xd, xs1, xs2`, opcode 0x16 (R167). -/
  | shr (rd : RegIx) (rs1 : RegIx) (rs2 : RegIx)
  /-- `CMP xs1, xs2`, opcode 0x17 (R168). -/
  | cmp (rs1 : RegIx) (rs2 : RegIx)
  /-- `BITLEN xd, xs1`, opcode 0x18 (R169). -/
  | bitlen (rd : RegIx) (rs1 : RegIx)
  /-- `BTST xs1, xs2`, opcode 0x19 (R170). -/
  | btst (rs1 : RegIx) (rs2 : RegIx)
  -- 42_modular.md
  /-- `CTXDEF c, xs1, MONT/BARR`, opcode 0x20 (R180). -/
  | ctxdef (c : CtxIx) (rs1 : RegIx) (strat : Strategy)
  /-- `REDC xd, c`, opcode 0x21 (R183). -/
  | redc (rd : RegIx) (c : CtxIx)
  /-- `BRED xd, c`, opcode 0x22 (R184). -/
  | bred (rd : RegIx) (c : CtxIx)
  /-- `MODADD xd, xs1, xs2, c`, opcode 0x23 (R185). -/
  | modadd (rd : RegIx) (rs1 : RegIx) (rs2 : RegIx) (c : CtxIx)
  /-- `MODSUB xd, xs1, xs2, c`, opcode 0x24 (R186). -/
  | modsub (rd : RegIx) (rs1 : RegIx) (rs2 : RegIx) (c : CtxIx)
  /-- `MODMUL xd, xs1, xs2, c`, opcode 0x25 (R187). -/
  | modmul (rd : RegIx) (rs1 : RegIx) (rs2 : RegIx) (c : CtxIx)
  /-- `MODINV xd, xs1, c`, opcode 0x26 (R188). -/
  | modinv (rd : RegIx) (rs1 : RegIx) (c : CtxIx)
  /-- `MODPOW xd, xs1, xs2, c`, opcode 0x27 (R190). -/
  | modpow (rd : RegIx) (rs1 : RegIx) (rs2 : RegIx) (c : CtxIx)
  /-- `JACOBI xd, xs1, xs2`, opcode 0x28 (R189). -/
  | jacobi (rd : RegIx) (rs1 : RegIx) (rs2 : RegIx)
  -- 43_prime_field.md
  /-- `FZERO xd, c`, opcode 0x30 (R211). -/
  | fzero (rd : RegIx) (c : CtxIx)
  /-- `FONE xd, c`, opcode 0x31 (R212). -/
  | fone (rd : RegIx) (c : CtxIx)
  /-- `FFROMI xd, xs1, c`, opcode 0x32 (R213). -/
  | ffromi (rd : RegIx) (rs1 : RegIx) (c : CtxIx)
  /-- `FTOI xd, xs1`, opcode 0x33 (R214). -/
  | ftoi (rd : RegIx) (rs1 : RegIx)
  /-- `FADD xd, xs1, xs2`, opcode 0x34 (R215). -/
  | fadd (rd : RegIx) (rs1 : RegIx) (rs2 : RegIx)
  /-- `FSUB xd, xs1, xs2`, opcode 0x35 (R216). -/
  | fsub (rd : RegIx) (rs1 : RegIx) (rs2 : RegIx)
  /-- `FNEG xd, xs1`, opcode 0x36 (R217). -/
  | fneg (rd : RegIx) (rs1 : RegIx)
  /-- `FMUL xd, xs1, xs2`, opcode 0x37 (R218). -/
  | fmul (rd : RegIx) (rs1 : RegIx) (rs2 : RegIx)
  /-- `FSQR xd, xs1`, opcode 0x38 (R219). -/
  | fsqr (rd : RegIx) (rs1 : RegIx)
  /-- `FINV xd, xs1`, opcode 0x39 (R220). -/
  | finv (rd : RegIx) (rs1 : RegIx)
  /-- `FPOW xd, xs1, xs2`, opcode 0x3A (R221). -/
  | fpow (rd : RegIx) (rs1 : RegIx) (rs2 : RegIx)
  /-- `FSQRT xd, xs1`, opcode 0x3B (R222). -/
  | fsqrt (rd : RegIx) (rs1 : RegIx)
  /-- `FISZ xs1`, opcode 0x3C (R224). -/
  | fisz (rs1 : RegIx)
  /-- `FEQ xs1, xs2`, opcode 0x3D (R225). -/
  | feq (rs1 : RegIx) (rs2 : RegIx)
  /-- `FENC xs, (xs1)`, opcode 0x3E (R226). -/
  | fenc (rd : RegIx) (rs1 : RegIx)
  /-- `FDEC xd, (xs1), c`, opcode 0x3F (R227). -/
  | fdec (rd : RegIx) (rs1 : RegIx) (c : CtxIx)
  /-- `FBINV xd, xs1, n`, opcode 0x40 (R228). -/
  | fbinv (rd : RegIx) (rs1 : RegIx) (cnt : Field6)
  -- 44_extension_field.md
  /-- `TWRDEF t, xs1, xs2, d, P(c)/T(u)`, opcode 0x50 (R242). -/
  | twrdef (t : TwrIx) (rs1 : RegIx) (rs2 : RegIx) (deg : Degree) (base : FieldSel)
  /-- `EZERO xd, t`, opcode 0x51 (R243). -/
  | ezero (rd : RegIx) (t : TwrIx)
  /-- `EONE xd, t`, opcode 0x52 (R244). -/
  | eone (rd : RegIx) (t : TwrIx)
  /-- `EADD xd, xs1, xs2, t`, opcode 0x53 (R245). -/
  | eadd (rd : RegIx) (rs1 : RegIx) (rs2 : RegIx) (t : TwrIx)
  /-- `ESUB xd, xs1, xs2, t`, opcode 0x54 (R246). -/
  | esub (rd : RegIx) (rs1 : RegIx) (rs2 : RegIx) (t : TwrIx)
  /-- `ENEG xd, xs1, t`, opcode 0x55 (R247). -/
  | eneg (rd : RegIx) (rs1 : RegIx) (t : TwrIx)
  /-- `EMUL xd, xs1, xs2, t`, opcode 0x56 (R248). -/
  | emul (rd : RegIx) (rs1 : RegIx) (rs2 : RegIx) (t : TwrIx)
  /-- `ESQR xd, xs1, t`, opcode 0x57 (R249). -/
  | esqr (rd : RegIx) (rs1 : RegIx) (t : TwrIx)
  /-- `EINV xd, xs1, t`, opcode 0x58 (R250). -/
  | einv (rd : RegIx) (rs1 : RegIx) (t : TwrIx)
  /-- `EPOW xd, xs1, xs2, t`, opcode 0x59 (R251). -/
  | epow (rd : RegIx) (rs1 : RegIx) (rs2 : RegIx) (t : TwrIx)
  /-- `EISZ xs1, t`, opcode 0x5A (R252). -/
  | eisz (rs1 : RegIx) (t : TwrIx)
  /-- `EEQ xs1, xs2, t`, opcode 0x5B (R253). -/
  | eeq (rs1 : RegIx) (rs2 : RegIx) (t : TwrIx)
  /-- `ECONJ xd, xs1, t`, opcode 0x5C (R254). -/
  | econj (rd : RegIx) (rs1 : RegIx) (t : TwrIx)
  /-- `EFROB xd, xs1, j, t`, opcode 0x5D (R255). -/
  | efrob (rd : RegIx) (rs1 : RegIx) (j : Field6) (t : TwrIx)
  /-- `EBINV xd, xs1, n, t`, opcode 0x5E (R256). -/
  | ebinv (rd : RegIx) (rs1 : RegIx) (cnt : Field6) (t : TwrIx)
  -- 45_curve.md
  /-- `CRVDEF i, xs1, xs2, NONE/D/M, P(c)/T(t)`, opcode 0x60 (R270). -/
  | crvdef (i : CrvIx) (rs1 : RegIx) (rs2 : RegIx) (twist : BitVec 2) (fd : FieldSel)
  /-- `PLIFT xd, xs1, i`, opcode 0x61 (R277). -/
  | plift (rd : RegIx) (rs1 : RegIx) (i : CrvIx)
  /-- `PDBL xd, xs1, i`, opcode 0x62 (R278). -/
  | pdbl (rd : RegIx) (rs1 : RegIx) (i : CrvIx)
  /-- `PADD xd, xs1, xs2, i`, opcode 0x63 (R279). -/
  | padd (rd : RegIx) (rs1 : RegIx) (rs2 : RegIx) (i : CrvIx)
  /-- `PMADD xd, xs1, xs2, i`, opcode 0x64 (R280). -/
  | pmadd (rd : RegIx) (rs1 : RegIx) (rs2 : RegIx) (i : CrvIx)
  /-- `PNEG xd, xs1, i`, opcode 0x65 (R281). -/
  | pneg (rd : RegIx) (rs1 : RegIx) (i : CrvIx)
  /-- `PISINF xs1, i`, opcode 0x66 (R282). -/
  | pisinf (rs1 : RegIx) (i : CrvIx)
  /-- `PAFF xd, xs1, i`, opcode 0x67 (R283). -/
  | paff (rd : RegIx) (rs1 : RegIx) (i : CrvIx)
  /-- `PONC xs1, i`, opcode 0x68 (R284). -/
  | ponc (rs1 : RegIx) (i : CrvIx)
  /-- `PEQ xs1, xs2, i`, opcode 0x69 (R285). -/
  | peq (rs1 : RegIx) (rs2 : RegIx) (i : CrvIx)
  /-- `PSMUL xd, xs1, xs2, i`, opcode 0x6A (R286). -/
  | psmul (rd : RegIx) (rs1 : RegIx) (rs2 : RegIx) (i : CrvIx)
  /-- `PSMUL2 xd, xs1, xs2, i`, opcode 0x6B (R287). -/
  | psmul2 (rd : RegIx) (rs1 : RegIx) (rs2 : RegIx) (i : CrvIx)
  /-- `PINF xd, i`, opcode 0x6C (R276). -/
  | pinf (rd : RegIx) (i : CrvIx)
  -- 46_wnaf.md
  /-- `WNAFENC xd, xs1, (xs2), w`, opcode 0x70 (R311). -/
  | wnafenc (rd : RegIx) (rs1 : RegIx) (rs2 : RegIx) (w : BitVec 4)
  /-- `WNAFDEC xd, xs1, (xs2)`, opcode 0x71 (R312). -/
  | wnafdec (rd : RegIx) (rs1 : RegIx) (rs2 : RegIx)
  -- 47_pairing.md
  /-- `PRGDEF g1, g2, POS/NEG, xs1, xs2, t`, opcode 0x80 (R321). -/
  | prgdef (g1 : CrvIx) (g2 : CrvIx) (neg : Bool) (rs1 : RegIx) (rs2 : RegIx) (t : TwrIx)
  /-- `PRECG1 slot, xs1`, opcode 0x81 (R327). -/
  | precg1 (slot : SlotIx) (rs1 : RegIx)
  /-- `PRECG2 slot, xs1`, opcode 0x82 (R328). -/
  | precg2 (slot : SlotIx) (rs1 : RegIx)
  /-- `MLOOP xd, s1, s2`, opcode 0x83 (R329). -/
  | mloop (rd : RegIx) (s1 : SlotIx) (s2 : SlotIx)
  /-- `DMLOOP xd, s1a, s2a, s1b, s2b`, opcode 0x84 (R330). -/
  | dmloop (rd : RegIx) (s1a : SlotIx) (s2a : SlotIx) (s1b : SlotIx) (s2b : SlotIx)
  /-- `FEXP xd, xs1`, opcode 0x85 (R332). -/
  | fexp (rd : RegIx) (rs1 : RegIx)
  /-- `RPAIR xd, xs1, xs2`, opcode 0x86 (R333). -/
  | rpair (rd : RegIx) (rs1 : RegIx) (rs2 : RegIx)
deriving DecidableEq, Repr

end Sys2Proof
end

