-- ==== Sys2Proof/Decode.lean ====
section
/-! DEFINITION. Command words to commands and back (30_encoding.md R100 to R107). The decoder is total on 32-bit words:
it answers a command exactly for the words that match a row of the opcode map, and rejects every other word by name. The
encoder writes the word of a command from the same map. -/

namespace Sys2Proof

/-- The five fields of a command word (R101, R102). -/
structure Fields where
  op : BitVec 8
  rd : Field6
  rs1 : Field6
  rs2 : Field6
  fn : Field6
deriving DecidableEq, Repr

/-- `op = word[31:24]`, `rd = word[23:18]`, `rs1 = word[17:12]`, `rs2 = word[11:6]`, `fn = word[5:0]` (R102). -/
def Fields.ofWord (w : Word) : Fields :=
  { op := w.extractLsb' 24 8, rd := w.extractLsb' 18 6, rs1 := w.extractLsb' 12 6,
    rs2 := w.extractLsb' 6 6, fn := w.extractLsb' 0 6 }

/-- The word whose fields these are, bit 31 on the left (R100, R101). -/
def Fields.word (f : Fields) : Word := f.op ++ f.rd ++ f.rs1 ++ f.rs2 ++ f.fn

/-- `imm18 = word[17:0]` (R101, R102). -/
def Fields.imm18 (f : Fields) : Imm18 := f.rs1 ++ f.rs2 ++ f.fn

/-- `imm12 = word[11:0]` (R101, R102). -/
def Fields.imm12 (f : Fields) : Imm12 := f.rs2 ++ f.fn

/-- Bits 1:0 of a 6-bit field. -/
def low2 (f : Field6) : BitVec 2 := f.extractLsb' 0 2

/-- Bits 2:0 of a 6-bit field. -/
def low3 (f : Field6) : BitVec 3 := f.extractLsb' 0 3

/-- Bits 3:0 of a 6-bit field. -/
def low4 (f : Field6) : BitVec 4 := f.extractLsb' 0 4

/-- Bits 5:2 of a 6-bit field are zero (R105). -/
def fits2 (f : Field6) : Bool := f.extractLsb' 2 4 == 0#4

/-- Bits 5:3 of a 6-bit field are zero (R105). -/
def fits3 (f : Field6) : Bool := f.extractLsb' 3 3 == 0#3

/-- Bits 5:4 of a 6-bit field are zero (R105). -/
def fits4 (f : Field6) : Bool := f.extractLsb' 4 2 == 0#2

/-- A whole field is zero (R105). -/
def isZero6 (f : Field6) : Bool := f == 0#6

/-- The flag a selector names (R133). -/
def Flag.ofCode (b : BitVec 2) : Flag :=
  if b = 0#2 then .c else if b = 1#2 then .z else if b = 2#2 then .l else .t

/-- The selector of a flag (R133). -/
def Flag.code : Flag → BitVec 2
  | .c => 0#2
  | .z => 1#2
  | .l => 2#2
  | .t => 3#2

/-- `fn[2]` of CTXDEF: 0 = Montgomery, 1 = Barrett (R180). -/
def Strategy.ofBit (b : BitVec 1) : Strategy := if b = 0#1 then .mont else .barr

/-- The strategy bit of CTXDEF (R180). -/
def Strategy.bit : Strategy → BitVec 1
  | .mont => 0#1
  | .barr => 1#1

/-- `fn[0]` of TWRDEF is d - 2 (R242). -/
def Degree.ofBit (b : BitVec 1) : Degree := if b = 0#1 then .quadratic else .cubic

/-- The degree bit of TWRDEF (R242). -/
def Degree.bit : Degree → BitVec 1
  | .quadratic => 0#1
  | .cubic => 1#1

/-- The kind bit of a field designator: 0 = prime field, 1 = tower (R112). -/
def FieldSel.kindBit (f : FieldSel) : BitVec 1 := BitVec.ofBool f.tower

/-- A field designator from its kind bit and number (R112). -/
def FieldSel.ofBits (kind : BitVec 1) (num : BitVec 3) : FieldSel := { tower := kind == 1#1, num := num }

/-- The CSR numbers a program may read: 0 to 8 and 10; CTRL (9) is the host's and 11 and above do not exist (R143, R47). -/
def csrReadable (csr : Imm18) : Bool := decide (csr.toNat ≤ 8) || csr.toNat == 10

/-- The CSR numbers a program may write: FLAGS (6) and WNAFW (7) (R144). -/
def csrWritable (csr : Imm18) : Bool := csr.toNat == 6 || csr.toNat == 7

/-- With kind 0 the number of a field designator is a context number, 0 to 3 (R112). -/
def FieldSel.legal (f : FieldSel) : Bool := f.tower || decide (f.num.toNat < 4)

/-- Twist code 3 of CRVDEF is illegal (R270). -/
def twistLegal (code : BitVec 2) : Bool := code != 3#2

/-- Why a word is not a command; both raise IllegalCommand (R105, R106). -/
inductive Reject where
  /-- The opcode is assigned to no command (R106). -/
  | unassignedOpcode (op : BitVec 8)
  /-- The word has the opcode of the named command and a reserved bit that is not zero (R105). -/
  | reservedBits (mnemonic : String)
deriving DecidableEq, Repr

/-- Accept a command if its reserved bits are zero (R105). -/
def accept (reservedZero : Bool) (mnemonic : String) (i : Instr) : Except Reject Instr :=
  if reservedZero then .ok i else .error (.reservedBits mnemonic)

/-- The opcode map read forwards (R104): the fields of each row, and the bits it requires to be zero. -/
def decodeFields (f : Fields) : Except Reject Instr :=
  match f.op.toNat with
  | 0x00 => accept (isZero6 f.rd && isZero6 f.rs1 && isZero6 f.rs2 && isZero6 f.fn) "NOP" .nop
  | 0x01 => accept (isZero6 f.rd && isZero6 f.rs1 && isZero6 f.rs2 && isZero6 f.fn) "HALT" .halt
  | 0x02 => accept (isZero6 f.rd) "JMP" (.jmp f.imm18)
  | 0x03 => accept (fits2 f.rd) "BS" (.bs (Flag.ofCode (low2 f.rd)) f.imm18)
  | 0x04 => accept (fits2 f.rd) "BC" (.bc (Flag.ofCode (low2 f.rd)) f.imm18)
  | 0x05 => .ok (.li f.rd f.imm18)
  | 0x06 => accept (isZero6 f.rs2) "MOV" (.mov f.rd f.rs1 f.fn)
  | 0x07 => .ok (.ld f.rd f.rs1 f.imm12)
  | 0x08 => .ok (.st f.rd f.rs1 f.imm12)
  | 0x09 => accept (isZero6 f.rs1 && isZero6 f.rs2 && isZero6 f.fn) "MOVAL" (.moval f.rd)
  | 0x0A => accept (isZero6 f.rs1 && isZero6 f.rs2 && isZero6 f.fn) "MOVAH" (.movah f.rd)
  | 0x0B => accept (isZero6 f.rd && isZero6 f.rs2 && isZero6 f.fn) "SETAL" (.setal f.rs1)
  | 0x0C => accept (isZero6 f.rd && isZero6 f.rs2 && isZero6 f.fn) "SETAH" (.setah f.rs1)
  | 0x0D => .ok (.csrr f.rd f.imm18)
  | 0x0E => .ok (.csrw f.rd f.imm18)
  | 0x10 => accept (isZero6 f.fn) "ADD" (.add f.rd f.rs1 f.rs2)
  | 0x11 => accept (isZero6 f.fn) "SUB" (.sub f.rd f.rs1 f.rs2)
  | 0x12 => accept (isZero6 f.rd && isZero6 f.fn) "MUL" (.mul f.rs1 f.rs2)
  | 0x13 => accept (isZero6 f.rs2 && isZero6 f.fn) "SHL1" (.shl1 f.rd f.rs1)
  | 0x14 => accept (isZero6 f.rs2 && isZero6 f.fn) "SHR1" (.shr1 f.rd f.rs1)
  | 0x15 => accept (isZero6 f.fn) "SHL" (.shl f.rd f.rs1 f.rs2)
  | 0x16 => accept (isZero6 f.fn) "SHR" (.shr f.rd f.rs1 f.rs2)
  | 0x17 => accept (isZero6 f.rd && isZero6 f.fn) "CMP" (.cmp f.rs1 f.rs2)
  | 0x18 => accept (isZero6 f.rs2 && isZero6 f.fn) "BITLEN" (.bitlen f.rd f.rs1)
  | 0x19 => accept (isZero6 f.rd && isZero6 f.fn) "BTST" (.btst f.rs1 f.rs2)
  | 0x20 => accept (isZero6 f.rd && isZero6 f.rs2 && fits3 f.fn) "CTXDEF" (.ctxdef (low2 f.fn) f.rs1 (Strategy.ofBit (f.fn.extractLsb' 2 1)))
  | 0x21 => accept (isZero6 f.rs1 && isZero6 f.rs2 && fits2 f.fn) "REDC" (.redc f.rd (low2 f.fn))
  | 0x22 => accept (isZero6 f.rs1 && isZero6 f.rs2 && fits2 f.fn) "BRED" (.bred f.rd (low2 f.fn))
  | 0x23 => accept (fits2 f.fn) "MODADD" (.modadd f.rd f.rs1 f.rs2 (low2 f.fn))
  | 0x24 => accept (fits2 f.fn) "MODSUB" (.modsub f.rd f.rs1 f.rs2 (low2 f.fn))
  | 0x25 => accept (fits2 f.fn) "MODMUL" (.modmul f.rd f.rs1 f.rs2 (low2 f.fn))
  | 0x26 => accept (isZero6 f.rs2 && fits2 f.fn) "MODINV" (.modinv f.rd f.rs1 (low2 f.fn))
  | 0x27 => accept (fits2 f.fn) "MODPOW" (.modpow f.rd f.rs1 f.rs2 (low2 f.fn))
  | 0x28 => accept (isZero6 f.fn) "JACOBI" (.jacobi f.rd f.rs1 f.rs2)
  | 0x30 => accept (isZero6 f.rs1 && isZero6 f.rs2 && fits2 f.fn) "FZERO" (.fzero f.rd (low2 f.fn))
  | 0x31 => accept (isZero6 f.rs1 && isZero6 f.rs2 && fits2 f.fn) "FONE" (.fone f.rd (low2 f.fn))
  | 0x32 => accept (isZero6 f.rs2 && fits2 f.fn) "FFROMI" (.ffromi f.rd f.rs1 (low2 f.fn))
  | 0x33 => accept (isZero6 f.rs2 && isZero6 f.fn) "FTOI" (.ftoi f.rd f.rs1)
  | 0x34 => accept (isZero6 f.fn) "FADD" (.fadd f.rd f.rs1 f.rs2)
  | 0x35 => accept (isZero6 f.fn) "FSUB" (.fsub f.rd f.rs1 f.rs2)
  | 0x36 => accept (isZero6 f.rs2 && isZero6 f.fn) "FNEG" (.fneg f.rd f.rs1)
  | 0x37 => accept (isZero6 f.fn) "FMUL" (.fmul f.rd f.rs1 f.rs2)
  | 0x38 => accept (isZero6 f.rs2 && isZero6 f.fn) "FSQR" (.fsqr f.rd f.rs1)
  | 0x39 => accept (isZero6 f.rs2 && isZero6 f.fn) "FINV" (.finv f.rd f.rs1)
  | 0x3A => accept (isZero6 f.fn) "FPOW" (.fpow f.rd f.rs1 f.rs2)
  | 0x3B => accept (isZero6 f.rs2 && isZero6 f.fn) "FSQRT" (.fsqrt f.rd f.rs1)
  | 0x3C => accept (isZero6 f.rd && isZero6 f.rs2 && isZero6 f.fn) "FISZ" (.fisz f.rs1)
  | 0x3D => accept (isZero6 f.rd && isZero6 f.fn) "FEQ" (.feq f.rs1 f.rs2)
  | 0x3E => accept (isZero6 f.rs2 && isZero6 f.fn) "FENC" (.fenc f.rd f.rs1)
  | 0x3F => accept (isZero6 f.rs2 && fits2 f.fn) "FDEC" (.fdec f.rd f.rs1 (low2 f.fn))
  | 0x40 => accept (isZero6 f.rs2) "FBINV" (.fbinv f.rd f.rs1 f.fn)
  | 0x50 => accept (fits3 f.rd && f.fn.extractLsb' 5 1 == 0#1) "TWRDEF" (.twrdef (low3 f.rd) f.rs1 f.rs2 (Degree.ofBit (f.fn.extractLsb' 0 1)) (FieldSel.ofBits (f.fn.extractLsb' 1 1) (f.fn.extractLsb' 2 3)))
  | 0x51 => accept (isZero6 f.rs1 && isZero6 f.rs2 && fits3 f.fn) "EZERO" (.ezero f.rd (low3 f.fn))
  | 0x52 => accept (isZero6 f.rs1 && isZero6 f.rs2 && fits3 f.fn) "EONE" (.eone f.rd (low3 f.fn))
  | 0x53 => accept (fits3 f.fn) "EADD" (.eadd f.rd f.rs1 f.rs2 (low3 f.fn))
  | 0x54 => accept (fits3 f.fn) "ESUB" (.esub f.rd f.rs1 f.rs2 (low3 f.fn))
  | 0x55 => accept (isZero6 f.rs2 && fits3 f.fn) "ENEG" (.eneg f.rd f.rs1 (low3 f.fn))
  | 0x56 => accept (fits3 f.fn) "EMUL" (.emul f.rd f.rs1 f.rs2 (low3 f.fn))
  | 0x57 => accept (isZero6 f.rs2 && fits3 f.fn) "ESQR" (.esqr f.rd f.rs1 (low3 f.fn))
  | 0x58 => accept (isZero6 f.rs2 && fits3 f.fn) "EINV" (.einv f.rd f.rs1 (low3 f.fn))
  | 0x59 => accept (fits3 f.fn) "EPOW" (.epow f.rd f.rs1 f.rs2 (low3 f.fn))
  | 0x5A => accept (isZero6 f.rd && isZero6 f.rs2 && fits3 f.fn) "EISZ" (.eisz f.rs1 (low3 f.fn))
  | 0x5B => accept (isZero6 f.rd && fits3 f.fn) "EEQ" (.eeq f.rs1 f.rs2 (low3 f.fn))
  | 0x5C => accept (isZero6 f.rs2 && fits3 f.fn) "ECONJ" (.econj f.rd f.rs1 (low3 f.fn))
  | 0x5D => accept (fits3 f.fn) "EFROB" (.efrob f.rd f.rs1 f.rs2 (low3 f.fn))
  | 0x5E => accept (fits3 f.fn) "EBINV" (.ebinv f.rd f.rs1 f.rs2 (low3 f.fn))
  | 0x60 => accept (fits2 f.rd) "CRVDEF" (.crvdef (low2 f.rd) f.rs1 f.rs2 (low2 f.fn) (FieldSel.ofBits (f.fn.extractLsb' 2 1) (f.fn.extractLsb' 3 3)))
  | 0x61 => accept (isZero6 f.rs2 && fits2 f.fn) "PLIFT" (.plift f.rd f.rs1 (low2 f.fn))
  | 0x62 => accept (isZero6 f.rs2 && fits2 f.fn) "PDBL" (.pdbl f.rd f.rs1 (low2 f.fn))
  | 0x63 => accept (fits2 f.fn) "PADD" (.padd f.rd f.rs1 f.rs2 (low2 f.fn))
  | 0x64 => accept (fits2 f.fn) "PMADD" (.pmadd f.rd f.rs1 f.rs2 (low2 f.fn))
  | 0x65 => accept (isZero6 f.rs2 && fits2 f.fn) "PNEG" (.pneg f.rd f.rs1 (low2 f.fn))
  | 0x66 => accept (isZero6 f.rd && isZero6 f.rs2 && fits2 f.fn) "PISINF" (.pisinf f.rs1 (low2 f.fn))
  | 0x67 => accept (isZero6 f.rs2 && fits2 f.fn) "PAFF" (.paff f.rd f.rs1 (low2 f.fn))
  | 0x68 => accept (isZero6 f.rd && isZero6 f.rs2 && fits2 f.fn) "PONC" (.ponc f.rs1 (low2 f.fn))
  | 0x69 => accept (isZero6 f.rd && fits2 f.fn) "PEQ" (.peq f.rs1 f.rs2 (low2 f.fn))
  | 0x6A => accept (fits2 f.fn) "PSMUL" (.psmul f.rd f.rs1 f.rs2 (low2 f.fn))
  | 0x6B => accept (fits2 f.fn) "PSMUL2" (.psmul2 f.rd f.rs1 f.rs2 (low2 f.fn))
  | 0x6C => accept (isZero6 f.rs1 && isZero6 f.rs2 && fits2 f.fn) "PINF" (.pinf f.rd (low2 f.fn))
  | 0x70 => accept (fits4 f.fn) "WNAFENC" (.wnafenc f.rd f.rs1 f.rs2 (low4 f.fn))
  | 0x71 => accept (isZero6 f.fn) "WNAFDEC" (.wnafdec f.rd f.rs1 f.rs2)
  | 0x80 => accept (f.rd.extractLsb' 5 1 == 0#1 && fits3 f.fn) "PRGDEF" (.prgdef (low2 f.rd) (f.rd.extractLsb' 2 2) (f.rd.extractLsb' 4 1 == 1#1) f.rs1 f.rs2 (low3 f.fn))
  | 0x81 => accept (fits2 f.rd && isZero6 f.rs2 && isZero6 f.fn) "PRECG1" (.precg1 (low2 f.rd) f.rs1)
  | 0x82 => accept (fits2 f.rd && isZero6 f.rs2 && isZero6 f.fn) "PRECG2" (.precg2 (low2 f.rd) f.rs1)
  | 0x83 => accept (fits4 f.rs1 && isZero6 f.rs2 && isZero6 f.fn) "MLOOP" (.mloop f.rd (low2 f.rs1) (f.rs1.extractLsb' 2 2))
  | 0x84 => accept (fits4 f.rs1 && fits4 f.rs2 && isZero6 f.fn) "DMLOOP" (.dmloop f.rd (low2 f.rs1) (f.rs1.extractLsb' 2 2) (low2 f.rs2) (f.rs2.extractLsb' 2 2))
  | 0x85 => accept (isZero6 f.rs2 && isZero6 f.fn) "FEXP" (.fexp f.rd f.rs1)
  | 0x86 => accept (isZero6 f.fn) "RPAIR" (.rpair f.rd f.rs1 f.rs2)
  | _ => .error (.unassignedOpcode f.op)

/-- The command a word stands for, or why it stands for none (R104 to R107). -/
def decode (w : Word) : Except Reject Instr := decodeFields (Fields.ofWord w)

/-- A word of format Z (R101). -/
def fieldsZ (op : BitVec 8) : Fields := { op, rd := 0#6, rs1 := 0#6, rs2 := 0#6, fn := 0#6 }

/-- A word of format I: the immediate takes the places of rs1, rs2 and fn (R101). -/
def fieldsI (op : BitVec 8) (rd : Field6) (imm : Imm18) : Fields :=
  { op, rd, rs1 := imm.extractLsb' 12 6, rs2 := imm.extractLsb' 6 6, fn := imm.extractLsb' 0 6 }

/-- A word of format M: the offset takes the places of rs2 and fn (R101). -/
def fieldsM (op : BitVec 8) (rd rs1 : Field6) (imm : Imm12) : Fields :=
  { op, rd, rs1, rs2 := imm.extractLsb' 6 6, fn := imm.extractLsb' 0 6 }

/-- A word of format R (R101). -/
def fieldsR (op : BitVec 8) (rd rs1 rs2 fn : Field6) : Fields := { op, rd, rs1, rs2, fn }

/-- A 2-bit value in a 6-bit field, the bits above it zero (R105). -/
def wide2 (b : BitVec 2) : Field6 := 0#4 ++ b

/-- A 3-bit value in a 6-bit field, the bits above it zero (R105). -/
def wide3 (b : BitVec 3) : Field6 := 0#3 ++ b

/-- A 4-bit value in a 6-bit field, the bits above it zero (R105). -/
def wide4 (b : BitVec 4) : Field6 := 0#2 ++ b

/-- Two slot numbers in a 6-bit field, the first in the low bits (R329, R330). -/
def slotPair (lo hi : SlotIx) : Field6 := 0#2 ++ hi ++ lo

/-- The opcode map read backwards (R104). -/
def encodeFields : Instr → Fields
  | .nop => fieldsZ 0x00#8
  | .halt => fieldsZ 0x01#8
  | .jmp target => fieldsI 0x02#8 0#6 target
  | .bs flag target => fieldsI 0x03#8 (wide2 flag.code) target
  | .bc flag target => fieldsI 0x04#8 (wide2 flag.code) target
  | .li rd imm => fieldsI 0x05#8 rd imm
  | .mov rd rs1 cnt => fieldsR 0x06#8 rd rs1 0#6 cnt
  | .ld rd rs1 imm => fieldsM 0x07#8 rd rs1 imm
  | .st rd rs1 imm => fieldsM 0x08#8 rd rs1 imm
  | .moval rd => fieldsR 0x09#8 rd 0#6 0#6 0#6
  | .movah rd => fieldsR 0x0A#8 rd 0#6 0#6 0#6
  | .setal rs1 => fieldsR 0x0B#8 0#6 rs1 0#6 0#6
  | .setah rs1 => fieldsR 0x0C#8 0#6 rs1 0#6 0#6
  | .csrr rd csr => fieldsI 0x0D#8 rd csr
  | .csrw rd csr => fieldsI 0x0E#8 rd csr
  | .add rd rs1 rs2 => fieldsR 0x10#8 rd rs1 rs2 0#6
  | .sub rd rs1 rs2 => fieldsR 0x11#8 rd rs1 rs2 0#6
  | .mul rs1 rs2 => fieldsR 0x12#8 0#6 rs1 rs2 0#6
  | .shl1 rd rs1 => fieldsR 0x13#8 rd rs1 0#6 0#6
  | .shr1 rd rs1 => fieldsR 0x14#8 rd rs1 0#6 0#6
  | .shl rd rs1 rs2 => fieldsR 0x15#8 rd rs1 rs2 0#6
  | .shr rd rs1 rs2 => fieldsR 0x16#8 rd rs1 rs2 0#6
  | .cmp rs1 rs2 => fieldsR 0x17#8 0#6 rs1 rs2 0#6
  | .bitlen rd rs1 => fieldsR 0x18#8 rd rs1 0#6 0#6
  | .btst rs1 rs2 => fieldsR 0x19#8 0#6 rs1 rs2 0#6
  | .ctxdef c rs1 strat => fieldsR 0x20#8 0#6 rs1 0#6 (0#3 ++ strat.bit ++ c)
  | .redc rd c => fieldsR 0x21#8 rd 0#6 0#6 (wide2 c)
  | .bred rd c => fieldsR 0x22#8 rd 0#6 0#6 (wide2 c)
  | .modadd rd rs1 rs2 c => fieldsR 0x23#8 rd rs1 rs2 (wide2 c)
  | .modsub rd rs1 rs2 c => fieldsR 0x24#8 rd rs1 rs2 (wide2 c)
  | .modmul rd rs1 rs2 c => fieldsR 0x25#8 rd rs1 rs2 (wide2 c)
  | .modinv rd rs1 c => fieldsR 0x26#8 rd rs1 0#6 (wide2 c)
  | .modpow rd rs1 rs2 c => fieldsR 0x27#8 rd rs1 rs2 (wide2 c)
  | .jacobi rd rs1 rs2 => fieldsR 0x28#8 rd rs1 rs2 0#6
  | .fzero rd c => fieldsR 0x30#8 rd 0#6 0#6 (wide2 c)
  | .fone rd c => fieldsR 0x31#8 rd 0#6 0#6 (wide2 c)
  | .ffromi rd rs1 c => fieldsR 0x32#8 rd rs1 0#6 (wide2 c)
  | .ftoi rd rs1 => fieldsR 0x33#8 rd rs1 0#6 0#6
  | .fadd rd rs1 rs2 => fieldsR 0x34#8 rd rs1 rs2 0#6
  | .fsub rd rs1 rs2 => fieldsR 0x35#8 rd rs1 rs2 0#6
  | .fneg rd rs1 => fieldsR 0x36#8 rd rs1 0#6 0#6
  | .fmul rd rs1 rs2 => fieldsR 0x37#8 rd rs1 rs2 0#6
  | .fsqr rd rs1 => fieldsR 0x38#8 rd rs1 0#6 0#6
  | .finv rd rs1 => fieldsR 0x39#8 rd rs1 0#6 0#6
  | .fpow rd rs1 rs2 => fieldsR 0x3A#8 rd rs1 rs2 0#6
  | .fsqrt rd rs1 => fieldsR 0x3B#8 rd rs1 0#6 0#6
  | .fisz rs1 => fieldsR 0x3C#8 0#6 rs1 0#6 0#6
  | .feq rs1 rs2 => fieldsR 0x3D#8 0#6 rs1 rs2 0#6
  | .fenc rd rs1 => fieldsR 0x3E#8 rd rs1 0#6 0#6
  | .fdec rd rs1 c => fieldsR 0x3F#8 rd rs1 0#6 (wide2 c)
  | .fbinv rd rs1 cnt => fieldsR 0x40#8 rd rs1 0#6 cnt
  | .twrdef t rs1 rs2 deg base => fieldsR 0x50#8 (wide3 t) rs1 rs2 (0#1 ++ base.num ++ base.kindBit ++ deg.bit)
  | .ezero rd t => fieldsR 0x51#8 rd 0#6 0#6 (wide3 t)
  | .eone rd t => fieldsR 0x52#8 rd 0#6 0#6 (wide3 t)
  | .eadd rd rs1 rs2 t => fieldsR 0x53#8 rd rs1 rs2 (wide3 t)
  | .esub rd rs1 rs2 t => fieldsR 0x54#8 rd rs1 rs2 (wide3 t)
  | .eneg rd rs1 t => fieldsR 0x55#8 rd rs1 0#6 (wide3 t)
  | .emul rd rs1 rs2 t => fieldsR 0x56#8 rd rs1 rs2 (wide3 t)
  | .esqr rd rs1 t => fieldsR 0x57#8 rd rs1 0#6 (wide3 t)
  | .einv rd rs1 t => fieldsR 0x58#8 rd rs1 0#6 (wide3 t)
  | .epow rd rs1 rs2 t => fieldsR 0x59#8 rd rs1 rs2 (wide3 t)
  | .eisz rs1 t => fieldsR 0x5A#8 0#6 rs1 0#6 (wide3 t)
  | .eeq rs1 rs2 t => fieldsR 0x5B#8 0#6 rs1 rs2 (wide3 t)
  | .econj rd rs1 t => fieldsR 0x5C#8 rd rs1 0#6 (wide3 t)
  | .efrob rd rs1 j t => fieldsR 0x5D#8 rd rs1 j (wide3 t)
  | .ebinv rd rs1 cnt t => fieldsR 0x5E#8 rd rs1 cnt (wide3 t)
  | .crvdef i rs1 rs2 twist fd => fieldsR 0x60#8 (wide2 i) rs1 rs2 (fd.num ++ fd.kindBit ++ twist)
  | .plift rd rs1 i => fieldsR 0x61#8 rd rs1 0#6 (wide2 i)
  | .pdbl rd rs1 i => fieldsR 0x62#8 rd rs1 0#6 (wide2 i)
  | .padd rd rs1 rs2 i => fieldsR 0x63#8 rd rs1 rs2 (wide2 i)
  | .pmadd rd rs1 rs2 i => fieldsR 0x64#8 rd rs1 rs2 (wide2 i)
  | .pneg rd rs1 i => fieldsR 0x65#8 rd rs1 0#6 (wide2 i)
  | .pisinf rs1 i => fieldsR 0x66#8 0#6 rs1 0#6 (wide2 i)
  | .paff rd rs1 i => fieldsR 0x67#8 rd rs1 0#6 (wide2 i)
  | .ponc rs1 i => fieldsR 0x68#8 0#6 rs1 0#6 (wide2 i)
  | .peq rs1 rs2 i => fieldsR 0x69#8 0#6 rs1 rs2 (wide2 i)
  | .psmul rd rs1 rs2 i => fieldsR 0x6A#8 rd rs1 rs2 (wide2 i)
  | .psmul2 rd rs1 rs2 i => fieldsR 0x6B#8 rd rs1 rs2 (wide2 i)
  | .pinf rd i => fieldsR 0x6C#8 rd 0#6 0#6 (wide2 i)
  | .wnafenc rd rs1 rs2 w => fieldsR 0x70#8 rd rs1 rs2 (wide4 w)
  | .wnafdec rd rs1 rs2 => fieldsR 0x71#8 rd rs1 rs2 0#6
  | .prgdef g1 g2 neg rs1 rs2 t => fieldsR 0x80#8 (0#1 ++ BitVec.ofBool neg ++ g2 ++ g1) rs1 rs2 (wide3 t)
  | .precg1 slot rs1 => fieldsR 0x81#8 (wide2 slot) rs1 0#6 0#6
  | .precg2 slot rs1 => fieldsR 0x82#8 (wide2 slot) rs1 0#6 0#6
  | .mloop rd s1 s2 => fieldsR 0x83#8 rd (slotPair s1 s2) 0#6 0#6
  | .dmloop rd s1a s2a s1b s2b => fieldsR 0x84#8 rd (slotPair s1a s2a) (slotPair s1b s2b) 0#6
  | .fexp rd rs1 => fieldsR 0x85#8 rd rs1 0#6 0#6
  | .rpair rd rs1 rs2 => fieldsR 0x86#8 rd rs1 rs2 0#6

/-- The word of a command (R100 to R104). -/
def encode (i : Instr) : Word := (encodeFields i).word

/-- What the decoder reads from an instruction of `nbits` bits `w`, bit 0 the least significant; every bit above `nbits`
is zero. A command is one word, so its bits are the word itself (R100). -/
def decodeTableWord (nbits w : Nat) : Option Instr :=
  match decode (BitVec.ofNat 32 (w % 2 ^ nbits)) with
  | .ok i => some i
  | .error _ => none

end Sys2Proof
end

