-- ==== Sys2Proof/Config.lean ====
section
/-! DEFINITION. What is fixed for one piece of hardware (00_scope.md R9, R10) and the values the spec leaves open. -/

namespace Sys2Proof

/-- The parameters of R9 that the model takes as arguments. They are carried by `State.par`, which nothing changes (R10).
DESIGN CHOICE (log 1). -/
structure Params where
  /-- `W`, the limb width in bits. -/
  limbBits : Nat
  /-- `N`, the limb count of every integer register. -/
  limbs : Nat
  /-- `CMWORDS`, the command-memory size in 32-bit words. -/
  cmWords : Nat
  /-- `DMBYTES`, the data-memory size in bytes. -/
  dmBytes : Nat
  /-- `WMAX`, the largest window of PSMUL and PSMUL2. -/
  wMax : Nat
deriving DecidableEq, Repr

/-- `BITS = N * W` (R9). -/
def Params.bits (p : Params) : Nat := p.limbs * p.limbBits

/-- The constraints of R9, with `N <= 255` of R37. -/
def Params.valid (p : Params) : Bool :=
  (p.limbBits == 8 || p.limbBits == 16 || p.limbBits == 32 || p.limbBits == 64) &&
  decide (1 ≤ p.limbs) && decide (p.limbs ≤ 255) && decide (32 ≤ p.bits) &&
  decide (1 ≤ p.cmWords) && decide (p.cmWords ≤ 2 ^ 18) &&
  decide (1 ≤ p.dmBytes) && decide (p.dmBytes ≤ 2 ^ 32) &&
  decide (1 ≤ p.wMax) && decide (p.wMax ≤ 15)

/-- The defaults of R9 and D52: W = 64, N = 1, CMWORDS = 4096, DMBYTES = 65536, WMAX = 8. -/
def Config.default : Params :=
  { limbBits := 64, limbs := 1, cmWords := 4096, dmBytes := 65536, wMax := 8 }

/-- FREE VALUE: what a command-memory word that nothing has written holds (R52, R391, U1: "any value"). Log 4. -/
opaque Config.cmPowerOn : Nat → Word

/-- FREE VALUE: what a data-memory byte that nothing has written holds (R52, R391, U2: "any value"). Log 4. -/
opaque Config.dmPowerOn : Nat → Byte

/-- FREE VALUE: what a data-memory byte holds after a reset has abandoned the command that was writing it (R391, U5);
the first argument counts such resets, the second is the address. Log 10. -/
opaque Config.abandonedByte : Nat → Nat → Byte

/-- FREE VALUE: what a host read other than STATUS returns while STATE is RUN (R87, U3), or a host read outside CM or DM;
the first argument numbers the host's reads, the second is what is read. Log 11, log 12. -/
opaque Config.hostReadFree : Nat → Nat → Word

/-- FREE VALUE: coordinate `i` of the "inverse" that a pairing command uses for a non-zero element `a` of a tier that has
no inverse, which only a composite modulus `p` allows (R323, R324, R326, U8). Arguments: `p`, `a`, `i`. Log 13. -/
opaque Config.nonUnitInverse : Nat → List Nat → Nat → Nat

/-- `ExtraSteps` of R9 and R331, the curve-family hook of the Miller loop: "a model takes the identity". Log 2. -/
def Config.extraSteps (f : List Nat) : List Nat := f

end Sys2Proof
end

