-- ==== Sys2Proof/Machine/State.lean ====
section
/-! DEFINITION. The state of the engine as plain data: 10_state.md R20 to R52, and the state after reset. -/

namespace Sys2Proof.Machine

/-- The run state `STATE` (R30). -/
inductive RunState where
  /-- After reset, or after the host cleared a fault. -/
  | idle
  /-- Executing commands. -/
  | run
  /-- A HALT command was executed. -/
  | halted
  /-- A command faulted. -/
  | fault
deriving DecidableEq, Repr

/-- The tag of an integer register: a plain integer, or a coordinate of the field of context `c` (R22). -/
inductive Tag where
  | raw
  | fp (c : CtxIx)
deriving DecidableEq, Repr

/-- One integer register: its value, below 2^BITS, and its tag (R21, R22). -/
structure Reg where
  val : Nat
  tag : Tag
deriving DecidableEq, Repr

/-- The strategy of a modular context with the constants derived for it (R31, R181, R182). -/
inductive Reduction where
  /-- `n0inv` with `n0inv * m mod 2^W = 2^W - 1`, and `R2 = 2^(2*BITS) mod m`. -/
  | montgomery (n0inv r2 : Nat)
  /-- `mu = floor(2^(2*k*W) / m)`. -/
  | barrett (mu : Nat)
deriving DecidableEq, Repr

/-- A valid entry of CTX (R31). -/
structure Ctx where
  /-- The modulus. -/
  m : Nat
  /-- `bit_length(m)`. -/
  mbits : Nat
  /-- `ceil(mbits / W)`, the limb length of m. -/
  k : Nat
  red : Reduction
deriving DecidableEq, Repr

/-- A tier: the prime field `P(c)` of a context, or the tower level `T(t)` (R32). -/
inductive Tier where
  | prime (c : CtxIx)
  | tower (t : TwrIx)
deriving DecidableEq, Repr

/-- The logical values of the coordinates of an element, in register order (R241); an element of a prime field has one. -/
abbrev Elem := List Nat

/-- A valid entry of TWR (R32). -/
structure Twr where
  /-- The tier below. -/
  base : Tier
  /-- The extension degree d, 2 or 3. -/
  deg : Degree
  /-- The non-residue, an element of the base tier. -/
  beta : Elem
  /-- The Frobenius coefficients `gamma_1 .. gamma_(d-1)`, elements of the base tier. -/
  gamma : List Elem
  /-- The context at the bottom of the chain of bases. -/
  root : CtxIx
  /-- The degree over the prime field. -/
  k : Nat
deriving DecidableEq, Repr

/-- The twist type of a curve: 0 = none, 1 = type D, 2 = type M (R33). -/
inductive Twist where
  | noTwist | typeD | typeM
deriving DecidableEq, Repr

/-- A valid entry of CRV (R33). -/
structure Crv where
  /-- The coordinate field. -/
  fd : Tier
  a : Elem
  b : Elem
  twist : Twist
  /-- The group order, not zero. -/
  r : Nat
  /-- `bit_length(r)`. -/
  sbits : Nat
deriving DecidableEq, Repr

/-- The pairing configuration PRG, when valid (R34). -/
structure Prg where
  g1 : CrvIx
  g2 : CrvIx
  /-- The tower level of GT. -/
  twr : TwrIx
  /-- `sign` = 1: the loop count is negative. -/
  neg : Bool
  /-- The absolute loop count `L`. -/
  loop : Nat
  omega : Elem
  /-- `E = (p^k - 1) / r`. -/
  e : Nat
deriving DecidableEq, Repr

/-- The coefficients (c0, c1, c3) of one line, elements of the G2 coordinate field (R324). -/
structure Line where
  c0 : Elem
  c1 : Elem
  c3 : Elem
deriving DecidableEq, Repr

/-- A valid precomputation slot (R35). -/
inductive Pre where
  /-- A G1 precomputation: an affine pair (R323). -/
  | g1 (xP yP : Elem)
  /-- A G2 precomputation: the coefficient triples in order (R324). -/
  | g2 (lines : List Line)
deriving DecidableEq, Repr

/-- The eight fault kinds (R350). -/
inductive FaultKind where
  | divisionByZero
  | outOfRange
  | pointNotOnCurve
  | invalidPairingInput
  | incompatibleContext
  | invalidParameter
  | illegalCommand
  | addressFault
deriving DecidableEq, Repr

/-- What a command raises: a kind whose EINFO is the command word, or an AddressFault of a data access with the first
byte address of the access (R41, R356). -/
inductive Trap where
  | kind (k : FaultKind)
  | data (addr : Nat)
deriving DecidableEq, Repr

/-- The complete state of R20, the parameters of R9, and one counter of the model's own. -/
structure State where
  /-- The parameters (R9), which nothing changes (R10). The MODEL's own field: DESIGN CHOICE, log 1. -/
  par : Params
  /-- The integer registers with their tags (R21, R22). -/
  x : Vector Reg 64
  /-- The accumulator ACC of 2*BITS bits (R26). -/
  acc : Nat
  /-- The flag C (R28). -/
  c : Bool
  /-- The flag Z (R28). -/
  z : Bool
  /-- The flag L (R28). -/
  l : Bool
  /-- The flag T (R28). -/
  t : Bool
  /-- The command pointer PC: between commands the next index, during a command its own index (R27). -/
  pc : BitVec 19
  /-- The run state STATE (R30). -/
  run : RunState
  /-- The code of the fault that stopped the engine, 0 when none (R39). -/
  err : BitVec 8
  /-- The index of the command that faulted (R40). -/
  epc : BitVec 19
  /-- The fault information (R41). -/
  einfo : BitVec 32
  /-- The window register WNAFW (R43). -/
  wnafw : BitVec 4
  /-- The interrupt-enable bit IE (R45, R51). -/
  ie : Bool
  /-- The modular contexts (R31); `none` is an invalid entry. -/
  ctx : Vector (Option Ctx) 4
  /-- The tower levels (R32). -/
  twr : Vector (Option Twr) 8
  /-- The curves (R33). -/
  crv : Vector (Option Crv) 4
  /-- The pairing configuration (R34). -/
  prg : Option Prg
  /-- The precomputation slots (R35). -/
  pre : Vector (Option Pre) 4
  /-- The words of command memory that have been written, by index (R48). -/
  cm : List (Nat × Word)
  /-- The bytes of data memory that have been written, by address (R49). -/
  dm : List Host.Cell
  /-- How often a reset has abandoned a command in flight. The MODEL's own field: log 10. -/
  fresh : Nat
deriving DecidableEq, Repr

/-- Why a step would stop the model. Every fault of the spec is a NEXT state (R356), so nothing raises this. -/
inductive Fault where
  /-- Raised by nothing: no command and no fetch of this engine ends outside the fault entry of R356. Safe. Log 6. -/
  | unreachable
deriving DecidableEq, Repr

/-- Why the model has no meaning for a command. -/
inductive Refusal where
  /-- Raised by an arm of `exec` whose command has no meaning yet; no arm raises it now. Safe. -/
  | notModelled (mnemonic : String)
deriving DecidableEq, Repr

/-- The state after reset with given parameters: every value is that of R52; nothing has been written to CM and DM. -/
def State.resetWith (par : Params) : State :=
  { par := par
    x := Vector.replicate 64 { val := 0, tag := .raw }
    acc := 0
    c := false
    z := false
    l := false
    t := false
    pc := 0#19
    run := .idle
    err := 0#8
    epc := 0#19
    einfo := 0#32
    wnafw := 4#4
    ie := false
    ctx := Vector.replicate 4 none
    twr := Vector.replicate 8 none
    crv := Vector.replicate 4 none
    prg := none
    pre := Vector.replicate 4 none
    cm := []
    dm := []
    fresh := 0 }

/-- The machine right after a power-on reset (R52, R390, R391), with the default parameters (R9, D52; log 1). -/
def State.reset : State := State.resetWith Config.default

end Sys2Proof.Machine
end

