-- ==== Sys2Proof/Machine/Ops.lean ====
section
/-! DEFINITION. The named operations that commands share: what a command may answer, taking a fault and clearing one
(60_exceptions.md), the register file (10_state.md), the tables (10_state.md), the two memories (20_memory.md), the
control and status registers (10_state.md section 8), and fetching a command word (40_control_move.md R145). -/

namespace Sys2Proof.Machine

/-- What a command answers. -/
abbrev Out := Host.Outcome State Fault Refusal

/-- A part of a command that may raise a fault instead of giving a value. -/
abbrev Attempt (α : Type) := Except Trap α

/-! ### Faults -/

/-- The code of a fault kind, the value written to ERR (R350). -/
def FaultKind.code : FaultKind → BitVec 8
  | .divisionByZero => 1#8
  | .outOfRange => 2#8
  | .pointNotOnCurve => 3#8
  | .invalidPairingInput => 4#8
  | .incompatibleContext => 5#8
  | .invalidParameter => 6#8
  | .illegalCommand => 7#8
  | .addressFault => 8#8

/-- FAULT ENTRY (R356): ERR, EPC and EINFO are recorded and STATE becomes FAULT; PC and everything else stay. -/
def State.takeFault (s : State) (k : FaultKind) (info : Word) : State :=
  { s with err := k.code, epc := s.pc, einfo := info, run := .fault }

/-- Fault entry for what a command raised: EINFO is the data address mod 2^32 for an AddressFault of a data access, and
the command word otherwise (R356, R41). -/
def State.takeTrap (s : State) (word : Word) : Trap → State
  | .kind k => s.takeFault k word
  | .data addr => s.takeFault .addressFault (BitVec.ofNat 32 addr)

/-- The host's CLR, the only way out of FAULT but for reset: there is no trap return (R361, R45). -/
def State.clearFault (s : State) : State :=
  if s.run = .fault then { s with run := .idle, err := 0#8, epc := 0#19, einfo := 0#32 } else s

/-- One check of a command: raise kind `k` if the condition holds (R14, R358). -/
def raiseIf (bad : Bool) (k : FaultKind) : Attempt Unit :=
  if bad then .error (.kind k) else .ok ()

/-- The value of an optional entry, or a fault of kind `k` where there is none. -/
def orRaise {α : Type} (v : Option α) (k : FaultKind) : Attempt α :=
  match v with
  | some a => .ok a
  | none => .error (.kind k)

/-- The end of command `i`: without a fault PC moves to `pc + 1` (R27, R145); with one, nothing but fault entry takes
effect (R357). EINFO's command word is the word of the command (log 8). -/
def conclude (i : Instr) (s : State) : Attempt State → Out
  | .ok s' => .next { s' with pc := s.pc + 1#19 }
  | .error t => .next (s.takeTrap (encode i) t)

/-! ### The register file -/

/-- Register `n` with its tag; there is no register 64 or above, and no command reads one (R21, R111). -/
def State.regAt (s : State) (n : Nat) : Reg :=
  if h : n < 64 then s.x[n] else { val := 0, tag := .raw }

/-- `x[r]` (R12). -/
def State.val (s : State) (r : RegIx) : Nat := (s.regAt r.toNat).val

/-- `tag[r]` (R12). -/
def State.tag (s : State) (r : RegIx) : Tag := (s.regAt r.toNat).tag

/-- The one write of a register: value, reduced to BITS bits, and tag together (R21, R23, R171). -/
def State.setReg (s : State) (n : Nat) (v : Nat) (tag : Tag) : State :=
  { s with x := s.x.setIfInBounds n { val := v % 2 ^ s.par.bits, tag := tag } }

/-- `x[r] <- v` with tag RAW (R23). -/
def State.setRaw (s : State) (r : RegIx) (v : Nat) : State := s.setReg r.toNat v .raw

/-- Write consecutive registers from `n` on. -/
def State.setRegs (s : State) (n : Nat) : List Reg → State
  | [] => s
  | r :: rest => (s.setReg n r.val r.tag).setRegs (n + 1) rest

/-- The `count` registers from `n` on. -/
def State.regRange (s : State) (n count : Nat) : List Reg :=
  (List.range count).map (fun j => s.regAt (n + j))

/-! ### The tables -/

/-- CTX[c], `none` when invalid (R31). -/
def State.ctxAt (s : State) (c : CtxIx) : Option Ctx := s.ctx[c.toNat]'c.isLt

/-- TWR[t], `none` when invalid (R32). -/
def State.twrAt (s : State) (t : TwrIx) : Option Twr := s.twr[t.toNat]'t.isLt

/-- CRV[i], `none` when invalid (R33). -/
def State.crvAt (s : State) (i : CrvIx) : Option Crv := s.crv[i.toNat]'i.isLt

/-- PRE[s], `none` when invalid (R35). -/
def State.preAt (s : State) (n : SlotIx) : Option Pre := s.pre[n.toNat]'n.isLt

/-- CTX[c] becomes valid (R31). -/
def State.setCtx (s : State) (c : CtxIx) (e : Ctx) : State :=
  { s with ctx := s.ctx.setIfInBounds c.toNat (some e) }

/-- TWR[t] becomes valid (R32). -/
def State.setTwr (s : State) (t : TwrIx) (e : Twr) : State :=
  { s with twr := s.twr.setIfInBounds t.toNat (some e) }

/-- CRV[i] becomes valid (R33). -/
def State.setCrv (s : State) (i : CrvIx) (e : Crv) : State :=
  { s with crv := s.crv.setIfInBounds i.toNat (some e) }

/-- PRG becomes valid (R34). -/
def State.setPrg (s : State) (e : Prg) : State := { s with prg := some e }

/-- PRE[s] becomes valid, replacing what it held (R35). -/
def State.setPre (s : State) (n : SlotIx) (e : Pre) : State :=
  { s with pre := s.pre.setIfInBounds n.toNat (some e) }

/-! ### Memory as a list of written cells -/

/-- What a memory holds at an address, `none` where nothing has been written. -/
def Memory.lookup {α : Type} : List (Nat × α) → Nat → Option α
  | [], _ => none
  | (b, v) :: rest, a => if a = b then some v else Memory.lookup rest a

/-- Write one cell, keeping the addresses rising. -/
def Memory.store {α : Type} : List (Nat × α) → Nat → α → List (Nat × α)
  | [], a, v => [(a, v)]
  | (b, u) :: rest, a, v =>
    if a < b then (a, v) :: (b, u) :: rest
    else if a = b then (a, v) :: rest
    else (b, u) :: Memory.store rest a v

/-- Write consecutive cells from address `a` on. -/
def Memory.storeAll {α : Type} (m : List (Nat × α)) (a : Nat) : List α → List (Nat × α)
  | [] => m
  | v :: rest => Memory.storeAll (Memory.store m a v) (a + 1) rest

/-- The canonical form: addresses strictly rising. An unlisted address reads as "not written", which no listed one does,
so equal memories are equal lists (log 4). -/
def Memory.wf {α : Type} : List (Nat × α) → Bool
  | [] => true
  | (a, _) :: rest => rest.all (fun e => decide (a < e.1)) && Memory.wf rest

/-- DM[a]: a byte nothing has written holds a free value (R52, U2). -/
def State.byteAt (s : State) (a : Nat) : Byte := (Memory.lookup s.dm a).getD (Config.dmPowerOn a)

/-- CM[i]: a word nothing has written holds a free value (R52, U1). -/
def State.wordAt (s : State) (i : Nat) : Word := (Memory.lookup s.cm i).getD (Config.cmPowerOn i)

/-- An access of `n` bytes at `addr` is admitted (R73). -/
def State.admits (s : State) (addr n : Nat) : Bool :=
  decide (addr < 2 ^ 32) && decide (addr + n ≤ s.par.dmBytes)

/-- `DM[addr] .. DM[addr+n-1]`. -/
def State.bytesAt (s : State) (addr n : Nat) : List Byte :=
  (List.range n).map (fun j => s.byteAt (addr + j))

/-- `MemRead(addr, n)` (R12, R73). -/
def State.readMem (s : State) (addr n : Nat) : Attempt (List Byte) :=
  if s.admits addr n then .ok (s.bytesAt addr n) else .error (.data addr)

/-- Write bytes from `addr` on, without a check. -/
def State.putBytes (s : State) (addr : Nat) (bytes : List Byte) : State :=
  { s with dm := Memory.storeAll s.dm addr bytes }

/-- `MemWrite(addr, n, bytes)`: the whole range is checked before the first byte is written (R12, R73, R357). -/
def State.writeMem (s : State) (addr : Nat) (bytes : List Byte) : Attempt State :=
  if s.admits addr bytes.length then .ok (s.putBytes addr bytes) else .error (.data addr)

/-- `LE(bytes)` (R12). -/
def leNat : List Byte → Nat
  | [] => 0
  | b :: rest => b.toNat + 256 * leNat rest

/-- `BE(bytes)` (R12). -/
def beNat (bytes : List Byte) : Nat := leNat bytes.reverse

/-- `v` in `n` bytes, least significant byte first (R74). -/
def leBytes (v n : Nat) : List Byte := (List.range n).map (fun j => BitVec.ofNat 8 (v / 2 ^ (8 * j)))

/-- `BE_n(v)`: `v` in `n` bytes, most significant byte first (R226). -/
def beBytes (v n : Nat) : List Byte := (leBytes v n).reverse

/-- The bytes of one register image, BITS/8 of them (R79). -/
def State.regBytes (s : State) : Nat := s.par.bits / 8

/-! ### Control and status registers -/

/-- The two bits of STATUS (R30, R38). -/
def RunState.code : RunState → Nat
  | .idle => 0
  | .run => 1
  | .halted => 2
  | .fault => 3

/-- `ID` (R36). -/
def csrId : Nat := 0x4D4D0007

/-- `CFG`: W, N and the table sizes minus one (R37). -/
def State.csrCfg (s : State) : Nat :=
  s.par.limbBits + s.par.limbs * 2 ^ 8 + 63 * 2 ^ 16 + 3 * 2 ^ 22 + 7 * 2 ^ 24 + 3 * 2 ^ 27 + 3 * 2 ^ 29

/-- `FLAGS`: C + 2*Z + 4*L + 8*T (R42, R143). -/
def State.csrFlags (s : State) : Nat := s.c.toNat + 2 * s.z.toNat + 4 * s.l.toNat + 8 * s.t.toNat

/-- The valid bits of a table, entry 0 in bit 0. -/
def validBits {α : Type} : List (Option α) → Nat
  | [] => 0
  | e :: rest => e.isSome.toNat + 2 * validBits rest

/-- `DEFV`: CTX in bits 3:0, TWR in 11:4, CRV in 15:12, PRG in 16, PRE in 20:17 (R46). -/
def State.csrDefv (s : State) : Nat :=
  validBits s.ctx.toList + 2 ^ 4 * validBits s.twr.toList + 2 ^ 12 * validBits s.crv.toList
    + 2 ^ 16 * s.prg.isSome.toNat + 2 ^ 17 * validBits s.pre.toList

/-- The value of a control and status register other than CTRL; PC reads as the index of the reading command (R36 to
R44, R46). -/
def State.csrValue (s : State) : Nat → Nat
  | 0 => csrId
  | 1 => s.csrCfg
  | 2 => s.run.code
  | 3 => s.err.toNat
  | 4 => s.epc.toNat
  | 5 => s.einfo.toNat
  | 6 => s.csrFlags
  | 7 => s.wnafw.toNat
  | 8 => s.pc.toNat
  | 10 => s.csrDefv
  | _ => 0

/-- `IRQ = IE and (STATE = HALTED or STATE = FAULT)` (R51, R360). -/
def State.irq (s : State) : Bool := s.ie && (s.run == .halted || s.run == .fault)

/-! ### Fetch -/

/-- `CM[PC]`, or nothing when `PC >= CMWORDS` (R145 step 1 and 2, R353). -/
def State.fetch (s : State) : Option Word :=
  if s.pc.toNat < s.par.cmWords then some (s.wordAt s.pc.toNat) else none

/-- The fetch fault: AddressFault with EPC = EINFO = PC (R353). -/
def State.takeFetchFault (s : State) : State := s.takeFault .addressFault (BitVec.ofNat 32 s.pc.toNat)

/-- A word that is no command: IllegalCommand with the word in EINFO (R105, R106, R41). -/
def State.takeIllegal (s : State) (w : Word) : State := s.takeFault .illegalCommand w

/-- `s` with word `w` at CM[PC] and STATE = RUN: what a host's load and START leave for the next fetch (R392; log 5). -/
def State.placeWord (s : State) (w : Word) : State :=
  { s with cm := Memory.store s.cm s.pc.toNat w, run := .run }

end Sys2Proof.Machine
end

