-- ==== Sys2Proof/Machine/Flags.lean ====
section
/-! DEFINITION. The four flags (10_state.md R28, R29) and every flag computation of the spec. -/

namespace Sys2Proof.Machine

/-- The flag a selector names (R133). -/
def State.flag (s : State) : Flag → Bool
  | .c => s.c
  | .z => s.z
  | .l => s.l
  | .t => s.t

/-- Write C (R29). -/
def State.setC (s : State) (b : Bool) : State := { s with c := b }

/-- Write Z and L (R29). -/
def State.setZL (s : State) (z l : Bool) : State := { s with z := z, l := l }

/-- Write T (R29). -/
def State.setT (s : State) (b : Bool) : State := { s with t := b }

/-- Write all four flags from the bits C = 0, Z = 1, L = 2, T = 3 of a value (R42, R144). -/
def State.setFlags (s : State) (v : Nat) : State :=
  { s with c := v.testBit 0, z := v.testBit 1, l := v.testBit 2, t := v.testBit 3 }

/-- C of ADD: the sum does not fit BITS bits (R161). -/
def carryOut (bits a b : Nat) : Bool := decide (2 ^ bits ≤ a + b)

/-- C of SUB: the borrow (R162). -/
def borrowOut (a b : Nat) : Bool := decide (a < b)

/-- C of SHL and SHL1: a one bit was shifted out at the top (R164, R166). -/
def shiftedOutLeft (bits a n : Nat) : Bool :=
  if bits ≤ n then decide (a ≠ 0) else decide (2 ^ bits ≤ a * 2 ^ n)

/-- C of SHR and SHR1: a one bit was shifted out at the bottom (R165, R167). -/
def shiftedOutRight (bits a n : Nat) : Bool :=
  if bits ≤ n then decide (a ≠ 0) else decide (a % 2 ^ n ≠ 0)

/-- Z of CMP (R168). -/
def equalFlag (a b : Nat) : Bool := decide (a = b)

/-- L of CMP: below, unsigned (R168). -/
def belowFlag (a b : Nat) : Bool := decide (a < b)

/-- T of BTST: bit `i` of the value, 0 at and above BITS (R170). -/
def bitFlag (bits a i : Nat) : Bool := if i < bits then a.testBit i else false

/-- Z of JACOBI: the symbol is 0 (R189). -/
def jacobiZero (j : Int) : Bool := decide (j = 0)

/-- L of JACOBI: the symbol is -1 (R189). -/
def jacobiMinus (j : Int) : Bool := decide (j = -1)

end Sys2Proof.Machine
end

