-- ==== Sys2Proof/Machine/Arith.lean ====
section
/-! DEFINITION. The integer functions behind the commands: bit length, power, inverse, Jacobi symbol, least square root
(42_modular.md, 43_prime_field.md), the constants of a context (R181, R182) and its two representations (R24). -/

namespace Sys2Proof.Machine

/-- `bit_length(v)`: 0 for 0, otherwise `floor(log2 v) + 1` (R11, R169). -/
def bitLength (v : Nat) : Nat := if v = 0 then 0 else Nat.log2 v + 1

/-- `ceil(a / b)`. -/
def ceilDiv (a b : Nat) : Nat := (a + b - 1) / b

/-- `(a - b) mod m`, the least non-negative residue of the exact difference (R11, R162, R186). -/
def subMod (m a b : Nat) : Nat := (((a : Int) - (b : Int)) % (m : Int)).toNat

/-! ### Powers (R190) -/

/-- Square-and-multiply over the low `n` bits of the exponent, most significant first. -/
def powFrom {α : Type} (mul : α → α → α) (a : α) (e : Nat) : Nat → α → α
  | 0, r => r
  | n + 1, r => powFrom mul a e n (if e.testBit n then mul (mul r r) a else mul r r)

/-- `a^e` for a multiplication with identity `one`; `a^0 = one` for every `a` (R190, D50). -/
def powBy {α : Type} (mul : α → α → α) (one a : α) (e : Nat) : α := powFrom mul a e (bitLength e) one

/-- `a^e mod m`, with `a^0 = 1 mod m` (R190). -/
def modPow (m a e : Nat) : Nat := powBy (fun x y => x * y % m) (1 % m) a e

/-! ### Inverses (R188, R193) -/

/-- The loop of the extended Euclidean algorithm: the last remainder r0 and its cofactor t0 (R193). The remainder r1
falls at every turn, so r1 + 1 turns are enough. -/
def euclid : Nat → Nat → Nat → Int → Int → Nat × Int
  | 0, r0, _, t0, _ => (r0, t0)
  | n + 1, r0, r1, t0, t1 =>
    if r1 = 0 then (r0, t0)
    else euclid n r1 (r0 - r0 / r1 * r1) t1 (t0 - (r0 / r1 : Nat) * t1)

/-- The unique `v` in [0, m) with `v * a mod m = 1`, or nothing when `a = 0` or `gcd(a, m) != 1` (R188). -/
def modInv (m a : Nat) : Option Nat :=
  if a = 0 then none
  else
    let (g, t) := euclid (a + 1) m a 0 1
    if g = 1 then some (t % (m : Int)).toNat else none

/-! ### The Jacobi symbol (R189, R194) -/

/-- The loop of the binary algorithm on `(a, n)` with the sign `t`; `a` falls at every turn, so a + 1 turns are enough. -/
def jacobiLoop : Nat → Nat → Nat → Int → Int
  | 0, _, _, _ => 0
  | k + 1, a, n, t =>
    if a = 0 then (if n = 1 then t else 0)
    else if a % 2 = 0 then jacobiLoop k (a / 2) n (if n % 8 = 3 ∨ n % 8 = 5 then -t else t)
    else jacobiLoop k (n % a) a (if a % 4 = 3 ∧ n % 4 = 3 then -t else t)

/-- The Jacobi symbol (a / n) for odd n > 1 (R189). -/
def jacobi (a n : Nat) : Int := jacobiLoop (a % n + 1) (a % n) n 1

/-! ### Square roots (R222) -/

/-- The least `r'` from `r` on, within `k` candidates, with `r' * r' mod m = a`. -/
def rootFrom (m a : Nat) : Nat → Nat → Option Nat
  | 0, _ => none
  | k + 1, r => if r * r % m = a then some r else rootFrom m a k (r + 1)

/-- `min { r in [0, m) : r * r mod m = a }`, nothing when the set is empty: the value rule of R222, normative for every
modulus (log 15). -/
def leastRoot (m a : Nat) : Option Nat := rootFrom m a m 0

/-! ### Contexts (R24, R31, R180 to R184) -/

/-- `n0inv = (-m)^(-1) mod 2^W` (R181). -/
def montN0inv (w m : Nat) : Nat := (modInv (2 ^ w) (2 ^ w - m % 2 ^ w)).getD 0

/-- `R2 = 2^(2*BITS) mod m` (R181). -/
def montR2 (bits m : Nat) : Nat := 2 ^ (2 * bits) % m

/-- `mu = floor(2^(2*k*W) / m)` (R182). -/
def barrettMu (w k m : Nat) : Nat := 2 ^ (2 * k * w) / m

/-- The entry CTXDEF writes for modulus `m` (R180). -/
def makeCtx (par : Params) (strat : Strategy) (m : Nat) : Ctx :=
  let k := ceilDiv (bitLength m) par.limbBits
  { m := m, mbits := bitLength m, k := k,
    red := match strat with
      | .mont => .montgomery (montN0inv par.limbBits m) (montR2 par.bits m)
      | .barr => .barrett (barrettMu par.limbBits k m) }

/-- The strategy of a context is Montgomery (R183). -/
def Ctx.isMont (c : Ctx) : Bool :=
  match c.red with
  | .montgomery _ _ => true
  | .barrett _ => false

/-- `t * R^(-1) mod m` with `R = 2^BITS`: the value REDC gives (R183, R24). -/
def montReduce (bits m t : Nat) : Nat := t * (modInv m (2 ^ bits % m)).getD 0 % m

/-- `rep(c, a)`, the stored form of a logical value in [0, m) (R24). For a Barrett context `rep(c, a) = a`; the reduction
below m changes no value in [0, m) (log 14). -/
def Ctx.rep (c : Ctx) (bits a : Nat) : Nat :=
  match c.red with
  | .montgomery _ _ => a * 2 ^ bits % c.m
  | .barrett _ => a % c.m

/-- `val(c, v)`, the logical value of a stored form (R24). -/
def Ctx.logical (c : Ctx) (bits v : Nat) : Nat :=
  match c.red with
  | .montgomery _ _ => montReduce bits c.m v
  | .barrett _ => v

/-- The number of bytes of an encoded field element, `ceil(mbits / 8)` (R75, R226). -/
def Ctx.encodedBytes (c : Ctx) : Nat := ceilDiv c.mbits 8

/-- `ACC` is in the range BRED admits: below `2^(2*k*W)` (R184). -/
def Ctx.barrettAdmits (c : Ctx) (w acc : Nat) : Bool := decide (acc < 2 ^ (2 * c.k * w))

end Sys2Proof.Machine
end

