-- ==== Sys2Proof/Machine/Digits.lean ====
section
/-! DEFINITION. The windowed non-adjacent form: 46_wnaf.md R310, R312, and its digits in memory (20_memory.md R76). -/

namespace Sys2Proof.Machine

/-- The digit for the remainder `c`: 0 when c is even, else `c mod 2^(w+1)` centred (R310). -/
def wnafDigit (w c : Nat) : Int :=
  if c % 2 = 1 then
    let u := c % 2 ^ (w + 1)
    if 2 ^ w < u then (u : Int) - 2 ^ (w + 1) else u
  else 0

/-- The digit loop of R310. A remainder of at most 2^n is used up in n + 1 turns. -/
def wnafLoop (w : Nat) : Nat → Nat → List Int
  | 0, _ => []
  | n + 1, c =>
    if c = 0 then []
    else wnafDigit w c :: wnafLoop w n (((c : Int) - wnafDigit w c) / 2).toNat

/-- `wnaf(k, w)`, least significant digit first; `wnaf(0, w) = [0]` (R310). -/
def wnaf (k w : Nat) : List Int := if k = 0 then [0] else wnafLoop w (bitLength k + 1) k

/-- `sum of d_i * 2^i` (R312, R313). -/
def digitSum : List Int → Int
  | [] => 0
  | d :: rest => d + 2 * digitSum rest

/-- A digit as two bytes, 16-bit two's complement, low byte first (R76, R311). -/
def digitBytes (d : Int) : List Byte :=
  let v := (BitVec.ofInt 16 d).toNat
  [BitVec.ofNat 8 v, BitVec.ofNat 8 (v / 256)]

/-- A digit sequence as it lies in memory (R76). -/
def digitsBytes (ds : List Int) : List Byte := ds.flatMap digitBytes

/-- The signed 16-bit number two bytes spell, low byte first (R76, R312). -/
def digitOf (lo hi : Byte) : Int := (hi ++ lo : BitVec 16).toInt

/-- The digit sequence that bytes spell (R312). -/
def digitsOf : List Byte → List Int
  | lo :: hi :: rest => digitOf lo hi :: digitsOf rest
  | _ => []

end Sys2Proof.Machine
end

