-- ==== Sys2Proof/Machine/Tower.lean ====
section
/-! DEFINITION. Arithmetic of a tier by value: 44_extension_field.md R240, R241, R257 to R260. -/

namespace Sys2Proof.Machine

/-- A tier with its chain of bases spelled out: a prime field with its modulus, or `B[x]/(x^2 - beta)` or
`B[x]/(x^3 - beta)` over a tier B, with the Frobenius coefficients (R240). -/
inductive Fld where
  | prime (p : Nat)
  | quad (base : Fld) (beta gamma1 : Elem)
  | cubic (base : Fld) (beta gamma1 gamma2 : Elem)
deriving DecidableEq, Repr

/-- The modulus at the bottom of the chain (R240). -/
def Fld.char : Fld → Nat
  | .prime p => p
  | .quad b _ _ => b.char
  | .cubic b _ _ _ => b.char

/-- The degree over the prime field: 1, or d times the degree of the base (R240). -/
def Fld.degree : Fld → Nat
  | .prime _ => 1
  | .quad b _ _ => 2 * b.degree
  | .cubic b _ _ _ => 3 * b.degree

/-- Coefficient `i` of an element over a base of degree `kb`: its `kb` coordinates from `i * kb` (R241). -/
def coeff (kb i : Nat) (a : Elem) : Elem := (a.drop (i * kb)).take kb

/-- The zero element (R243). -/
def Fld.zero (f : Fld) : Elem := List.replicate f.degree 0

/-- An element of a tier below, embedded as `(v, 0, ..., 0)` (R260). -/
def Fld.embed (f : Fld) (v : Elem) : Elem := v ++ List.replicate (f.degree - v.length) 0

/-- The identity: `1 mod p` and zeros (R244). -/
def Fld.one (f : Fld) : Elem := f.embed [1 % f.char]

/-- Every coordinate is 0 (R252). -/
def isZeroElem (a : Elem) : Bool := a.all (fun v => v == 0)

/-- `a + b`, coordinate by coordinate modulo p (R215, R245). -/
def Fld.add (f : Fld) (a b : Elem) : Elem := List.zipWith (fun u v => (u + v) % f.char) a b

/-- `-a`, coordinate by coordinate modulo p (R217, R247). -/
def Fld.neg (f : Fld) (a : Elem) : Elem := a.map (fun u => subMod f.char 0 u)

/-- `a - b`, coordinate by coordinate modulo p (R216, R246). -/
def Fld.sub (f : Fld) (a b : Elem) : Elem := List.zipWith (fun u v => subMod f.char u v) a b

/-- The tier is a quadratic extension (R254). -/
def Fld.isQuadratic : Fld → Bool
  | .quad _ _ _ => true
  | .prime _ => false
  | .cubic _ _ _ _ => false

/-- `n * a` by repeated addition (R274). -/
def Fld.times (f : Fld) : Nat → Elem → Elem
  | 0, _ => f.zero
  | n + 1, a => f.add (f.times n a) a

/-- The product: polynomials over the base with `x^d` replaced by beta (R257, R218). -/
def Fld.mul : Fld → Elem → Elem → Elem
  | .prime p, a, b => [a.headD 0 * b.headD 0 % p]
  | .quad f beta _, a, b =>
    let kb := f.degree
    let a0 := coeff kb 0 a; let a1 := coeff kb 1 a
    let b0 := coeff kb 0 b; let b1 := coeff kb 1 b
    f.add (f.mul a0 b0) (f.mul beta (f.mul a1 b1)) ++ f.add (f.mul a0 b1) (f.mul a1 b0)
  | .cubic f beta _ _, a, b =>
    let kb := f.degree
    let a0 := coeff kb 0 a; let a1 := coeff kb 1 a; let a2 := coeff kb 2 a
    let b0 := coeff kb 0 b; let b1 := coeff kb 1 b; let b2 := coeff kb 2 b
    f.add (f.mul a0 b0) (f.mul beta (f.add (f.mul a1 b2) (f.mul a2 b1)))
      ++ (f.add (f.add (f.mul a0 b1) (f.mul a1 b0)) (f.mul beta (f.mul a2 b2))
      ++ f.add (f.add (f.mul a0 b2) (f.mul a1 b1)) (f.mul a2 b0))

/-- The square, equal to the product of the element with itself (R219, R249). -/
def Fld.sqr (f : Fld) (a : Elem) : Elem := f.mul a a

/-- The inverse by the norm, down to the root context, or nothing where a norm has none (R258, R250, R220). -/
def Fld.inv : Fld → Elem → Option Elem
  | .prime p, a => (modInv p (a.headD 0)).map (fun v => [v])
  | .quad f beta _, a =>
    let kb := f.degree
    let a0 := coeff kb 0 a; let a1 := coeff kb 1 a
    match f.inv (f.sub (f.mul a0 a0) (f.mul beta (f.mul a1 a1))) with
    | none => none
    | some n => some (f.mul a0 n ++ f.mul (f.neg a1) n)
  | .cubic f beta _ _, a =>
    let kb := f.degree
    let a0 := coeff kb 0 a; let a1 := coeff kb 1 a; let a2 := coeff kb 2 a
    let u := f.sub (f.mul a0 a0) (f.mul beta (f.mul a1 a2))
    let v := f.sub (f.mul beta (f.mul a2 a2)) (f.mul a0 a1)
    let w := f.sub (f.mul a1 a1) (f.mul a0 a2)
    match f.inv (f.add (f.mul a0 u) (f.mul beta (f.add (f.mul a2 v) (f.mul a1 w)))) with
    | none => none
    | some n => some (f.mul u n ++ (f.mul v n ++ f.mul w n))

/-- `a^e`, with `a^0 = 1` for every a including 0 (R251, D50). -/
def Fld.pow (f : Fld) (a : Elem) (e : Nat) : Elem := powBy f.mul f.one a e

/-- The conjugate `(a_0, -a_1)` of a quadratic tier; only the top level is conjugated (R254). -/
def Fld.conj : Fld → Elem → Elem
  | .quad f _ _, a => coeff f.degree 0 a ++ f.neg (coeff f.degree 1 a)
  | .prime _, a => a
  | .cubic _ _ _ _, a => a

/-- One application of the Frobenius formula (R259). -/
def Fld.frob : Fld → Elem → Elem
  | .prime _, a => a
  | .quad f _ g1, a =>
    let kb := f.degree
    f.frob (coeff kb 0 a) ++ f.mul (f.frob (coeff kb 1 a)) g1
  | .cubic f _ g1 g2, a =>
    let kb := f.degree
    f.frob (coeff kb 0 a) ++ (f.mul (f.frob (coeff kb 1 a)) g1 ++ f.mul (f.frob (coeff kb 2 a)) g2)

/-- The Frobenius formula applied `j` times; `j = 0` is the identity (R255). -/
def Fld.frobs (f : Fld) : Nat → Elem → Elem
  | 0, a => a
  | j + 1, a => f.frobs j (f.frob a)

/-- The inverse a pairing command uses. Over a prime modulus every non-zero element has one; for a non-zero element
without an inverse, which only a composite modulus allows, the value is free (log 13). -/
def Fld.invOrFree (f : Fld) (a : Elem) : Elem :=
  match f.inv a with
  | some v => v
  | none => (List.range f.degree).map (fun i => Config.nonUnitInverse f.char a i % f.char)

/-- The degree `d` as a number (R240). -/
def degreeNat : Degree → Nat
  | .quadratic => 2
  | .cubic => 3

/-- The non-residue check of a tower definition over the base tier `f`, q = p^(k_B) its size: beta is not 0, d divides
q - 1, and beta^((q-1)/d) is not 1 (R242). -/
def isNonResidue (f : Fld) (d : Degree) (beta : Elem) : Bool :=
  let q := f.char ^ f.degree
  !isZeroElem beta && ((q - 1) % degreeNat d == 0) && (f.pow beta ((q - 1) / degreeNat d) != f.one)

end Sys2Proof.Machine
end

