-- ==== Sys2Proof/Machine/Points.lean ====
section
/-! DEFINITION. Jacobian points over a tier and scalar multiplication: 45_curve.md R271 to R275, R281 to R289. -/

namespace Sys2Proof.Machine

/-- A Jacobian point (X, Y, Z), elements of the coordinate field (R272). -/
structure JPoint where
  x : Elem
  y : Elem
  z : Elem
deriving DecidableEq, Repr

/-- The canonical point at infinity (0, 1, 0) (R273). -/
def infinity (f : Fld) : JPoint := { x := f.zero, y := f.one, z := f.zero }

/-- Any triple with Z = 0 is the point at infinity (R273). -/
def JPoint.isInf (p : JPoint) : Bool := isZeroElem p.z

/-- Canonical form: the canonical infinity when Z is 0 (R273). -/
def JPoint.canonical (f : Fld) (p : JPoint) : JPoint := if p.isInf then infinity f else p

/-- The point of an affine pair, Z = 1 (R277, R280). -/
def affinePoint (f : Fld) (x y : Elem) : JPoint := { x := x, y := y, z := f.one }

/-- The doubling formula of R274; `a` is the curve coefficient. -/
def double (f : Fld) (a : Elem) (p : JPoint) : JPoint :=
  if p.isInf || isZeroElem p.y then infinity f
  else
    let y2 := f.sqr p.y
    let s := f.times 4 (f.mul p.x y2)
    let m := f.add (f.times 3 (f.sqr p.x)) (f.mul a (f.sqr (f.sqr p.z)))
    let x3 := f.sub (f.sqr m) (f.times 2 s)
    let y3 := f.sub (f.mul m (f.sub s x3)) (f.times 8 (f.sqr y2))
    let z3 := f.times 2 (f.mul p.y p.z)
    JPoint.canonical f { x := x3, y := y3, z := z3 }

/-- The addition formula of R275. -/
def addPoints (f : Fld) (a : Elem) (p q : JPoint) : JPoint :=
  if p.isInf then q.canonical f
  else if q.isInf then p
  else
    let zz1 := f.sqr p.z
    let zz2 := f.sqr q.z
    let u1 := f.mul p.x zz2
    let u2 := f.mul q.x zz1
    let s1 := f.mul p.y (f.mul zz2 q.z)
    let s2 := f.mul q.y (f.mul zz1 p.z)
    if u1 = u2 then
      if s1 = s2 then double f a p else infinity f
    else
      let h := f.sub u2 u1
      let r := f.sub s2 s1
      let h2 := f.sqr h
      let h3 := f.mul h2 h
      let u1h2 := f.mul u1 h2
      let x3 := f.sub (f.sub (f.sqr r) h3) (f.times 2 u1h2)
      let y3 := f.sub (f.mul r (f.sub u1h2 x3)) (f.mul s1 h3)
      let z3 := f.mul (f.mul p.z q.z) h
      JPoint.canonical f { x := x3, y := y3, z := z3 }

/-- Negation `(X, -Y, Z)` in canonical form (R281). -/
def negPoint (f : Fld) (p : JPoint) : JPoint := JPoint.canonical f { p with y := f.neg p.y }

/-- `y^2 = x^3 + a*x + b` for an affine pair (R277). -/
def onCurveAffine (f : Fld) (a b x y : Elem) : Bool :=
  f.sqr y == f.add (f.add (f.mul (f.sqr x) x) (f.mul a x)) b

/-- `Y^2 = X^3 + a*X*Z^4 + b*Z^6`; the point at infinity is on every curve (R284). -/
def onCurve (f : Fld) (a b : Elem) (p : JPoint) : Bool :=
  if p.isInf then true
  else
    let z2 := f.sqr p.z
    let z4 := f.sqr z2
    let z6 := f.mul z4 z2
    f.sqr p.y == f.add (f.add (f.mul (f.sqr p.x) p.x) (f.mul (f.mul a p.x) z4)) (f.mul b z6)

/-- Equality of points by cross-multiplication (R285). -/
def eqPoints (f : Fld) (p q : JPoint) : Bool :=
  if p.isInf && q.isInf then true
  else if p.isInf || q.isInf then false
  else
    let zz1 := f.sqr p.z
    let zz2 := f.sqr q.z
    f.mul p.x zz2 == f.mul q.x zz1 && f.mul p.y (f.mul zz2 q.z) == f.mul q.y (f.mul zz1 p.z)

/-- `(X * zi^2, Y * zi^3)` for the inverse `zi` of Z (R283). -/
def affineBy (f : Fld) (p : JPoint) (zi : Elem) : Elem × Elem :=
  let zi2 := f.sqr zi
  (f.mul p.x zi2, f.mul p.y (f.mul zi2 zi))

/-- The affine pair of a point, nothing when Z is 0 or has no inverse (R283). -/
def toAffine (f : Fld) (p : JPoint) : Option (Elem × Elem) :=
  if p.isInf then none else (f.inv p.z).map (affineBy f p)

/-! ### Scalar multiplication (R288) -/

/-- `n` more table entries, each the last one plus D. -/
def oddFrom (f : Fld) (a : Elem) (d last : JPoint) : Nat → List JPoint
  | 0 => []
  | n + 1 => let next := addPoints f a last d; next :: oddFrom f a d next n

/-- The table of odd multiples `Tb[j] = (2j+1) * P`, 2^(w-1) entries (R288). -/
def oddTable (f : Fld) (a : Elem) (p : JPoint) (w : Nat) : List JPoint :=
  p :: oddFrom f a (double f a p) p (2 ^ (w - 1) - 1)

/-- One digit of the sweep: nothing for 0, else the table entry or its negation is added (R288). -/
def addDigit (f : Fld) (a : Elem) (table : List JPoint) (acc : JPoint) (d : Int) : JPoint :=
  let entry := table.getD ((d.natAbs - 1) / 2) (infinity f)
  if d = 0 then acc
  else if 0 < d then addPoints f a acc entry
  else addPoints f a acc (negPoint f entry)

/-- The sweep over digits given most significant first (R288). -/
def sweep (f : Fld) (a : Elem) (table : List JPoint) : List Int → JPoint → JPoint
  | [], acc => acc
  | d :: rest, acc => sweep f a table rest (addDigit f a table (double f a acc) d)

/-- `k * P` with window `w` (R288, R286). -/
def scalarMul (f : Fld) (a : Elem) (p : JPoint) (k w : Nat) : JPoint :=
  sweep f a (oddTable f a p w) (wnaf k w).reverse (infinity f)

/-- The interleaved sweep over two digit sequences of equal length, most significant first: one doubling a step, then
the digit of the first scalar, then that of the second (R288). -/
def sweep2 (f : Fld) (a : Elem) (t1 t2 : List JPoint) : List (Int × Int) → JPoint → JPoint
  | [], acc => acc
  | (d1, d2) :: rest, acc =>
    sweep2 f a t1 t2 rest (addDigit f a t2 (addDigit f a t1 (double f a acc) d1) d2)

/-- A digit sequence padded with zero digits to length `n` (R288). -/
def padDigits (n : Nat) (ds : List Int) : List Int := ds ++ List.replicate (n - ds.length) 0

/-- `k1 * P1 + k2 * P2` with window `w` (R288, R287). -/
def scalarMul2 (f : Fld) (a : Elem) (p1 : JPoint) (k1 : Nat) (p2 : JPoint) (k2 w : Nat) : JPoint :=
  let d1 := wnaf k1 w
  let d2 := wnaf k2 w
  let n := max d1.length d2.length
  sweep2 f a (oddTable f a p1 w) (oddTable f a p2 w)
    (List.zip (padDigits n d1) (padDigits n d2)).reverse (infinity f)

end Sys2Proof.Machine
end

