-- ==== Sys2Proof/Machine/Operands.lean ====
section
/-! DEFINITION. The operand forms of the commands: contexts, tiers, curves and the pairing configuration named in a
command word (30_encoding.md R112), register ranges (R111), tags (43_prime_field.md R210), elements, points and affine
pairs in registers (44_extension_field.md R241, 45_curve.md R272). -/

namespace Sys2Proof.Machine

/-- A count field holds the count minus one (R103). -/
def countOf (cnt : Field6) : Nat := cnt.toNat + 1

/-- The tier a field designator names (R112). -/
def tierOf (f : FieldSel) : Tier := if f.tower then .tower f.num else .prime (f.num.extractLsb' 0 2)

/-- An operand of `count` registers from `first` on runs past x[63] (R111). -/
def runsPast (first count : Nat) : Bool := decide (64 < first + count)

/-! ### Fields -/

/-- A tier as a command uses it: its root context, its degree over the prime field, and its arithmetic. -/
structure FieldView where
  root : CtxIx
  ctx : Ctx
  k : Nat
  fld : Fld
deriving DecidableEq, Repr

/-- The chain of bases of a tier, spelled out; at most 8 levels can stand above a prime field. Nothing where an entry of
the chain is invalid, which in a run it never is (log 17). -/
def State.resolve (s : State) : Nat → Tier → Option Fld
  | 0, _ => none
  | _ + 1, .prime c => (s.ctxAt c).map (fun e => .prime e.m)
  | n + 1, .tower t =>
    match s.twrAt t with
    | none => none
    | some e =>
      match s.resolve n e.base with
      | none => none
      | some f =>
        match e.deg with
        | .quadratic => some (.quad f e.beta (e.gamma.getD 0 []))
        | .cubic => some (.cubic f e.beta (e.gamma.getD 0 []) (e.gamma.getD 1 []))

/-- The prime field of a valid context (R240). -/
def primeView (c : CtxIx) (e : Ctx) : FieldView := { root := c, ctx := e, k := 1, fld := .prime e.m }

/-- A valid tier (R31, R32, R240). -/
def State.fieldOf (s : State) : Tier → Option FieldView
  | .prime c => (s.ctxAt c).map (primeView c)
  | .tower t =>
    match s.twrAt t with
    | none => none
    | some e =>
      match s.ctxAt e.root with
      | none => none
      | some cx =>
        match s.resolve 9 (.tower t) with
        | none => none
        | some f => some { root := e.root, ctx := cx, k := e.k, fld := f }

/-- Context c, or InvalidParameter when it is not valid. -/
def State.needCtx (s : State) (c : CtxIx) : Attempt Ctx := orRaise (s.ctxAt c) .invalidParameter

/-- A tier, or InvalidParameter when it is not valid. -/
def State.needField (s : State) (t : Tier) : Attempt FieldView := orRaise (s.fieldOf t) .invalidParameter

/-- Tower t, or InvalidParameter when it is not valid. -/
def State.needTower (s : State) (t : TwrIx) : Attempt FieldView := s.needField (.tower t)

/-- A curve with its coordinate field. -/
structure CurveView where
  crv : Crv
  fv : FieldView
deriving DecidableEq, Repr

/-- A valid curve (R33). -/
def State.curveOf (s : State) (i : CrvIx) : Option CurveView :=
  match s.crvAt i with
  | none => none
  | some e =>
    match s.fieldOf e.fd with
    | none => none
    | some f => some { crv := e, fv := f }

/-- Curve i, or InvalidParameter when it is not valid. -/
def State.needCurve (s : State) (i : CrvIx) : Attempt CurveView := orRaise (s.curveOf i) .invalidParameter

/-- The pairing configuration with its two curves and GT. -/
structure PairingView where
  prg : Prg
  g1 : CurveView
  g2 : CurveView
  gt : FieldView
deriving DecidableEq, Repr

/-- The valid pairing configuration (R34). -/
def State.pairingOf (s : State) : Option PairingView :=
  match s.prg with
  | none => none
  | some e =>
    match s.curveOf e.g1, s.curveOf e.g2, s.fieldOf (.tower e.twr) with
    | some c1, some c2, some gt => some { prg := e, g1 := c1, g2 := c2, gt := gt }
    | _, _, _ => none

/-- PRG, or InvalidParameter when it is not valid. -/
def State.needPairing (s : State) : Attempt PairingView := orRaise s.pairingOf .invalidParameter

/-- The tiers strictly below a tier in its chain of bases, the nearest first (R321). -/
def State.tiersBelow (s : State) : Nat → Tier → List Tier
  | 0, _ => []
  | _ + 1, .prime _ => []
  | n + 1, .tower t =>
    match s.twrAt t with
    | none => []
    | some e => e.base :: s.tiersBelow n e.base

/-! ### Integer operands -/

/-- An integer-valued operand in register `n` must be tagged RAW (R210). -/
def State.needRawAt (s : State) (n : Nat) : Attempt Nat :=
  if (s.regAt n).tag = .raw then .ok (s.regAt n).val else .error (.kind .incompatibleContext)

/-- An integer-valued operand must be tagged RAW (R210). -/
def State.needRaw (s : State) (r : RegIx) : Attempt Nat := s.needRawAt r.toNat

/-! ### Prime-field operands (R210) -/

/-- The tag a register's coordinate of the field carries. -/
def FieldView.tag (f : FieldView) : Tag := .fp f.root

/-- The stored form of a coordinate (R24). -/
def State.repOf (s : State) (f : FieldView) (a : Nat) : Nat := f.ctx.rep s.par.bits a

/-- The value of register `n` as a coordinate of the field, `val(c, x[n])` (R24). -/
def State.coordAt (s : State) (f : FieldView) (n : Nat) : Nat := f.ctx.logical s.par.bits (s.regAt n).val

/-- The field of an element register, by its tag; IncompatibleContext when it is tagged RAW (R210). The context named by
a tag is valid in every run (R25). -/
def State.needFp (s : State) (r : RegIx) : Attempt FieldView :=
  match s.tag r with
  | .raw => .error (.kind .incompatibleContext)
  | .fp c => orRaise ((s.ctxAt c).map (primeView c)) .incompatibleContext

/-- A second element operand must carry the tag of the first (R210, R215). -/
def State.needSameTag (s : State) (f : FieldView) (r : RegIx) : Attempt Unit :=
  raiseIf (s.tag r != f.tag) .incompatibleContext

/-- The value of an element register. -/
def State.fpVal (s : State) (f : FieldView) (r : RegIx) : Nat := s.coordAt f r.toNat

/-- Write an element register: `x[r] <- rep(c, a)`, tag FP(c) (R210, R23). -/
def State.setFp (s : State) (f : FieldView) (r : RegIx) (a : Nat) : State :=
  s.setReg r.toNat (s.repOf f a) f.tag

/-! ### Elements, affine pairs and points (R241, R272) -/

/-- Every register of the range carries the tag FP(root). -/
def State.tagged (s : State) (f : FieldView) (n count : Nat) : Bool :=
  (s.regRange n count).all (fun r => r.tag == f.tag)

/-- `elem(t, n)`: the k coordinates from register n on (R241). -/
def State.elemAt (s : State) (f : FieldView) (n : Nat) : Elem :=
  (List.range f.k).map (fun j => s.coordAt f (n + j))

/-- Write an element: exactly k registers, with tag FP(root) (R241). -/
def State.setElem (s : State) (f : FieldView) (n : Nat) (a : Elem) : State :=
  s.setRegs n ((List.range f.k).map (fun j => { val := s.repOf f (a.getD j 0), tag := f.tag }))

/-- Read an element, checking the tags of all its registers first (R241). -/
def State.needElem (s : State) (f : FieldView) (n : Nat) : Attempt Elem :=
  if s.tagged f n f.k then .ok (s.elemAt f n) else .error (.kind .incompatibleContext)

/-- `count` elements, one after the other from register n on. -/
def State.elemsAt (s : State) (f : FieldView) (n count : Nat) : List Elem :=
  (List.range count).map (fun i => s.elemAt f (n + i * f.k))

/-- Write elements one after the other from register n on. -/
def State.setElems (s : State) (f : FieldView) (n : Nat) : List Elem → State
  | [] => s
  | a :: rest => (s.setElem f n a).setElems f (n + f.k) rest

/-- `point(i, n)`: X, Y, Z, each an element (R272). -/
def State.pointAt (s : State) (f : FieldView) (n : Nat) : JPoint :=
  { x := s.elemAt f n, y := s.elemAt f (n + f.k), z := s.elemAt f (n + 2 * f.k) }

/-- Write a point: 3e registers with tag FP(root) (R272). -/
def State.setPoint (s : State) (f : FieldView) (n : Nat) (p : JPoint) : State :=
  ((s.setElem f n p.x).setElem f (n + f.k) p.y).setElem f (n + 2 * f.k) p.z

/-- Read a point, checking the tags of all its registers first (R272). -/
def State.needPoint (s : State) (f : FieldView) (n : Nat) : Attempt JPoint :=
  if s.tagged f n (3 * f.k) then .ok (s.pointAt f n) else .error (.kind .incompatibleContext)

/-- An affine pair at register n: x then y (R272). -/
def State.pairAt (s : State) (f : FieldView) (n : Nat) : Elem × Elem := (s.elemAt f n, s.elemAt f (n + f.k))

/-- Write an affine pair: 2e registers with tag FP(root) (R283). -/
def State.setPair (s : State) (f : FieldView) (n : Nat) (p : Elem × Elem) : State :=
  (s.setElem f n p.1).setElem f (n + f.k) p.2

/-- Read an affine pair, checking the tags of all its registers first (R272). -/
def State.needPair (s : State) (f : FieldView) (n : Nat) : Attempt (Elem × Elem) :=
  if s.tagged f n (2 * f.k) then .ok (s.pairAt f n) else .error (.kind .incompatibleContext)

end Sys2Proof.Machine
end

