-- ==== Sys2Proof/Machine/Control.lean ====
section
/-! DEFINITION. Control, move, memory and system commands: 40_control_move.md R130 to R146. -/

namespace Sys2Proof.Machine

/-- NOP (R130). -/
def execNop (s : State) : Out := conclude .nop s (.ok s)

/-- HALT: STATE becomes HALTED, PC keeps the index of the HALT (R131). -/
def execHalt (s : State) : Out := .next { s with run := .halted }

/-- JMP: an absolute command index (R132). -/
def execJmp (target : Imm18) (s : State) : Out := .next { s with pc := target.zeroExtend 19 }

/-- BS: branch if the flag is set (R133). -/
def execBs (flag : Flag) (target : Imm18) (s : State) : Out :=
  .next { s with pc := if s.flag flag then target.zeroExtend 19 else s.pc + 1#19 }

/-- BC: branch if the flag is clear (R134). -/
def execBc (flag : Flag) (target : Imm18) (s : State) : Out :=
  .next { s with pc := if s.flag flag then s.pc + 1#19 else target.zeroExtend 19 }

/-- LI: the immediate zero-extended (R135). -/
def execLi (rd : RegIx) (imm : Imm18) (s : State) : Out :=
  conclude (.li rd imm) s (.ok (s.setRaw rd imm.toNat))

/-- MOV: n registers with their tags, all reads before all writes (R136). -/
def execMov (rd rs1 : RegIx) (cnt : Field6) (s : State) : Out :=
  let n := countOf cnt
  conclude (.mov rd rs1 cnt) s do
    raiseIf (runsPast rs1.toNat n || runsPast rd.toNat n) .illegalCommand
    .ok (s.setRegs rd.toNat (s.regRange rs1.toNat n))

/-- LD: BITS/8 bytes, little-endian, tag RAW (R137). -/
def execLd (rd rs1 : RegIx) (imm : Imm12) (s : State) : Out :=
  conclude (.ld rd rs1 imm) s do
    let bytes ← s.readMem (s.val rs1 + imm.toNat) s.regBytes
    .ok (s.setRaw rd (leNat bytes))

/-- ST: the representation bits, BITS/8 bytes, little-endian (R138). -/
def execSt (rd rs1 : RegIx) (imm : Imm12) (s : State) : Out :=
  conclude (.st rd rs1 imm) s (s.writeMem (s.val rs1 + imm.toNat) (leBytes (s.val rd) s.regBytes))

/-- MOVAL: the low half of ACC (R139). -/
def execMoval (rd : RegIx) (s : State) : Out :=
  conclude (.moval rd) s (.ok (s.setRaw rd (s.acc % 2 ^ s.par.bits)))

/-- MOVAH: the high half of ACC (R140). -/
def execMovah (rd : RegIx) (s : State) : Out :=
  conclude (.movah rd) s (.ok (s.setRaw rd (s.acc / 2 ^ s.par.bits)))

/-- SETAL: the low half of ACC, the high half unchanged (R141). -/
def execSetal (rs1 : RegIx) (s : State) : Out :=
  conclude (.setal rs1) s
    (.ok { s with acc := s.acc / 2 ^ s.par.bits * 2 ^ s.par.bits + s.val rs1 })

/-- SETAH: the high half of ACC, the low half unchanged (R142). -/
def execSetah (rs1 : RegIx) (s : State) : Out :=
  conclude (.setah rs1) s
    (.ok { s with acc := s.val rs1 * 2 ^ s.par.bits + s.acc % 2 ^ s.par.bits })

/-- CSRR: CTRL (9) and the numbers from 11 on raise IllegalCommand (R143). -/
def execCsrr (rd : RegIx) (csr : Imm18) (s : State) : Out :=
  conclude (.csrr rd csr) s do
    raiseIf (!csrReadable csr) .illegalCommand
    .ok (s.setRaw rd (s.csrValue csr.toNat))

/-- CSRW: FLAGS (6) and WNAFW (7) only (R144). -/
def execCsrw (rd : RegIx) (csr : Imm18) (s : State) : Out :=
  let v := s.val rd
  conclude (.csrw rd csr) s do
    raiseIf (!csrWritable csr) .illegalCommand
    raiseIf (decide (2 ^ 32 ≤ v)) .outOfRange
    if csr.toNat = 6 then do
      raiseIf (decide (16 ≤ v)) .invalidParameter
      .ok (s.setFlags v)
    else do
      raiseIf (decide (v = 0) || decide (s.par.wMax < v)) .invalidParameter
      .ok { s with wnafw := BitVec.ofNat 4 v }

end Sys2Proof.Machine
end

