-- ==== Sys2Proof/Machine/Curve.lean ====
section
/-! DEFINITION. Curve commands: 45_curve.md R270 to R289. The group-law commands apply their formulas to whatever
coordinates they are given (R271). -/

namespace Sys2Proof.Machine

/-- The twist type of a legal twist code (R270). -/
def twistOf (code : BitVec 2) : Twist :=
  if code = 0#2 then .noTwist else if code = 1#2 then .typeD else .typeM

/-- CRVDEF (R270). -/
def execCrvdef (i : CrvIx) (rs1 rs2 : RegIx) (twist : BitVec 2) (fd : FieldSel) (s : State) : Out :=
  conclude (.crvdef i rs1 rs2 twist fd) s do
    raiseIf (!twistLegal twist || !fd.legal) .illegalCommand
    raiseIf (s.crvAt i).isSome .invalidParameter
    let f ← s.needField (tierOf fd)
    raiseIf (runsPast rs1.toNat (2 * f.k)) .illegalCommand
    let ab ← s.needPair f rs1.toNat
    let r ← s.needRaw rs2
    raiseIf (decide (r = 0)) .invalidParameter
    .ok (s.setCrv i
      { fd := tierOf fd, a := ab.1, b := ab.2, twist := twistOf twist, r := r, sbits := bitLength r })

/-- PINF (R276). -/
def execPinf (rd : RegIx) (i : CrvIx) (s : State) : Out :=
  conclude (.pinf rd i) s do
    let v ← s.needCurve i
    raiseIf (runsPast rd.toNat (3 * v.fv.k)) .illegalCommand
    .ok (s.setPoint v.fv rd.toNat (infinity v.fv.fld))

/-- PLIFT: the affine pair must satisfy the curve equation (R277). -/
def execPlift (rd rs1 : RegIx) (i : CrvIx) (s : State) : Out :=
  conclude (.plift rd rs1 i) s do
    let v ← s.needCurve i
    raiseIf (runsPast rd.toNat (3 * v.fv.k) || runsPast rs1.toNat (2 * v.fv.k)) .illegalCommand
    let q ← s.needPair v.fv rs1.toNat
    raiseIf (!onCurveAffine v.fv.fld v.crv.a v.crv.b q.1 q.2) .pointNotOnCurve
    .ok (s.setPoint v.fv rd.toNat (affinePoint v.fv.fld q.1 q.2))

/-- PDBL (R278). -/
def execPdbl (rd rs1 : RegIx) (i : CrvIx) (s : State) : Out :=
  conclude (.pdbl rd rs1 i) s do
    let v ← s.needCurve i
    raiseIf (runsPast rd.toNat (3 * v.fv.k) || runsPast rs1.toNat (3 * v.fv.k)) .illegalCommand
    let p ← s.needPoint v.fv rs1.toNat
    .ok (s.setPoint v.fv rd.toNat (double v.fv.fld v.crv.a p))

/-- PADD (R279). -/
def execPadd (rd rs1 rs2 : RegIx) (i : CrvIx) (s : State) : Out :=
  conclude (.padd rd rs1 rs2 i) s do
    let v ← s.needCurve i
    raiseIf (runsPast rd.toNat (3 * v.fv.k) || runsPast rs1.toNat (3 * v.fv.k) || runsPast rs2.toNat (3 * v.fv.k))
      .illegalCommand
    let p ← s.needPoint v.fv rs1.toNat
    let q ← s.needPoint v.fv rs2.toNat
    .ok (s.setPoint v.fv rd.toNat (addPoints v.fv.fld v.crv.a p q))

/-- PMADD: the second operand is an affine pair, not checked to be on the curve (R280). -/
def execPmadd (rd rs1 rs2 : RegIx) (i : CrvIx) (s : State) : Out :=
  conclude (.pmadd rd rs1 rs2 i) s do
    let v ← s.needCurve i
    raiseIf (runsPast rd.toNat (3 * v.fv.k) || runsPast rs1.toNat (3 * v.fv.k) || runsPast rs2.toNat (2 * v.fv.k))
      .illegalCommand
    let p ← s.needPoint v.fv rs1.toNat
    let q ← s.needPair v.fv rs2.toNat
    .ok (s.setPoint v.fv rd.toNat (addPoints v.fv.fld v.crv.a p (affinePoint v.fv.fld q.1 q.2)))

/-- PNEG (R281). -/
def execPneg (rd rs1 : RegIx) (i : CrvIx) (s : State) : Out :=
  conclude (.pneg rd rs1 i) s do
    let v ← s.needCurve i
    raiseIf (runsPast rd.toNat (3 * v.fv.k) || runsPast rs1.toNat (3 * v.fv.k)) .illegalCommand
    let p ← s.needPoint v.fv rs1.toNat
    .ok (s.setPoint v.fv rd.toNat (negPoint v.fv.fld p))

/-- PISINF (R282). -/
def execPisinf (rs1 : RegIx) (i : CrvIx) (s : State) : Out :=
  conclude (.pisinf rs1 i) s do
    let v ← s.needCurve i
    raiseIf (runsPast rs1.toNat (3 * v.fv.k)) .illegalCommand
    let p ← s.needPoint v.fv rs1.toNat
    .ok (s.setT p.isInf)

/-- PAFF: DivisionByZero at infinity and where Z has no inverse (R283). -/
def execPaff (rd rs1 : RegIx) (i : CrvIx) (s : State) : Out :=
  conclude (.paff rd rs1 i) s do
    let v ← s.needCurve i
    raiseIf (runsPast rd.toNat (2 * v.fv.k) || runsPast rs1.toNat (3 * v.fv.k)) .illegalCommand
    let p ← s.needPoint v.fv rs1.toNat
    let q ← orRaise (toAffine v.fv.fld p) .divisionByZero
    .ok (s.setPair v.fv rd.toNat q)

/-- PONC (R284). -/
def execPonc (rs1 : RegIx) (i : CrvIx) (s : State) : Out :=
  conclude (.ponc rs1 i) s do
    let v ← s.needCurve i
    raiseIf (runsPast rs1.toNat (3 * v.fv.k)) .illegalCommand
    let p ← s.needPoint v.fv rs1.toNat
    .ok (s.setT (onCurve v.fv.fld v.crv.a v.crv.b p))

/-- PEQ (R285). -/
def execPeq (rs1 rs2 : RegIx) (i : CrvIx) (s : State) : Out :=
  conclude (.peq rs1 rs2 i) s do
    let v ← s.needCurve i
    raiseIf (runsPast rs1.toNat (3 * v.fv.k) || runsPast rs2.toNat (3 * v.fv.k)) .illegalCommand
    let p ← s.needPoint v.fv rs1.toNat
    let q ← s.needPoint v.fv rs2.toNat
    .ok (s.setT (eqPoints v.fv.fld p q))

/-- PSMUL: a scalar longer than the group order is OutOfRange (R286). -/
def execPsmul (rd rs1 rs2 : RegIx) (i : CrvIx) (s : State) : Out :=
  conclude (.psmul rd rs1 rs2 i) s do
    let v ← s.needCurve i
    raiseIf (runsPast rd.toNat (3 * v.fv.k) || runsPast rs1.toNat (3 * v.fv.k)) .illegalCommand
    let p ← s.needPoint v.fv rs1.toNat
    let k ← s.needRaw rs2
    raiseIf (decide (v.crv.sbits < bitLength k)) .outOfRange
    .ok (s.setPoint v.fv rd.toNat (scalarMul v.fv.fld v.crv.a p k s.wnafw.toNat))

/-- PSMUL2: two points and two scalars, each pair consecutive (R287). -/
def execPsmul2 (rd rs1 rs2 : RegIx) (i : CrvIx) (s : State) : Out :=
  conclude (.psmul2 rd rs1 rs2 i) s do
    let v ← s.needCurve i
    raiseIf (runsPast rd.toNat (3 * v.fv.k) || runsPast rs1.toNat (6 * v.fv.k) || runsPast rs2.toNat 2) .illegalCommand
    let p1 ← s.needPoint v.fv rs1.toNat
    let p2 ← s.needPoint v.fv (rs1.toNat + 3 * v.fv.k)
    let k1 ← s.needRaw rs2
    let k2 ← s.needRawAt (rs2.toNat + 1)
    raiseIf (decide (v.crv.sbits < bitLength k1) || decide (v.crv.sbits < bitLength k2)) .outOfRange
    .ok (s.setPoint v.fv rd.toNat (scalarMul2 v.fv.fld v.crv.a p1 k1 p2 k2 s.wnafw.toNat))

end Sys2Proof.Machine
end

