-- ==== Sys2Proof/Machine/Extension.lean ====
section
/-! DEFINITION. Extension-field commands (tower and Frobenius): 44_extension_field.md R240 to R260. -/

namespace Sys2Proof.Machine

/-- TWRDEF (R242). -/
def execTwrdef (t : TwrIx) (rs1 rs2 : RegIx) (deg : Degree) (base : FieldSel) (s : State) : Out :=
  conclude (.twrdef t rs1 rs2 deg base) s do
    raiseIf (!base.legal) .illegalCommand
    raiseIf (s.twrAt t).isSome .invalidParameter
    let f ← s.needField (tierOf base)
    let n := degreeNat deg - 1
    raiseIf (runsPast rs1.toNat f.k || runsPast rs2.toNat (n * f.k)) .illegalCommand
    raiseIf (!s.tagged f rs1.toNat f.k || !s.tagged f rs2.toNat (n * f.k)) .incompatibleContext
    let beta := s.elemAt f rs1.toNat
    raiseIf (!isNonResidue f.fld deg beta) .invalidParameter
    .ok (s.setTwr t
      { base := tierOf base, deg := deg, beta := beta, gamma := s.elemsAt f rs2.toNat n,
        root := f.root, k := degreeNat deg * f.k })

/-- EZERO (R243). -/
def execEzero (rd : RegIx) (t : TwrIx) (s : State) : Out :=
  conclude (.ezero rd t) s do
    let f ← s.needTower t
    raiseIf (runsPast rd.toNat f.k) .illegalCommand
    .ok (s.setElem f rd.toNat f.fld.zero)

/-- EONE (R244). -/
def execEone (rd : RegIx) (t : TwrIx) (s : State) : Out :=
  conclude (.eone rd t) s do
    let f ← s.needTower t
    raiseIf (runsPast rd.toNat f.k) .illegalCommand
    .ok (s.setElem f rd.toNat f.fld.one)

/-- The common shape of EADD, ESUB and EMUL: both sources are read, checks in the order of R245. -/
def State.elemBinary (s : State) (rd rs1 rs2 : RegIx) (t : TwrIx) (op : Fld → Elem → Elem → Elem) : Attempt State := do
  let f ← s.needTower t
  raiseIf (runsPast rd.toNat f.k || runsPast rs1.toNat f.k || runsPast rs2.toNat f.k) .illegalCommand
  let a ← s.needElem f rs1.toNat
  let b ← s.needElem f rs2.toNat
  .ok (s.setElem f rd.toNat (op f.fld a b))

/-- The common shape of ENEG, ESQR and EFROB: checks in the order of R247. -/
def State.elemUnary (s : State) (rd rs1 : RegIx) (t : TwrIx) (op : Fld → Elem → Elem) : Attempt State := do
  let f ← s.needTower t
  raiseIf (runsPast rd.toNat f.k || runsPast rs1.toNat f.k) .illegalCommand
  let a ← s.needElem f rs1.toNat
  .ok (s.setElem f rd.toNat (op f.fld a))

/-- EADD (R245). -/
def execEadd (rd rs1 rs2 : RegIx) (t : TwrIx) (s : State) : Out :=
  conclude (.eadd rd rs1 rs2 t) s (s.elemBinary rd rs1 rs2 t Fld.add)

/-- ESUB (R246). -/
def execEsub (rd rs1 rs2 : RegIx) (t : TwrIx) (s : State) : Out :=
  conclude (.esub rd rs1 rs2 t) s (s.elemBinary rd rs1 rs2 t Fld.sub)

/-- ENEG (R247). -/
def execEneg (rd rs1 : RegIx) (t : TwrIx) (s : State) : Out :=
  conclude (.eneg rd rs1 t) s (s.elemUnary rd rs1 t Fld.neg)

/-- EMUL (R248). -/
def execEmul (rd rs1 rs2 : RegIx) (t : TwrIx) (s : State) : Out :=
  conclude (.emul rd rs1 rs2 t) s (s.elemBinary rd rs1 rs2 t Fld.mul)

/-- ESQR (R249). -/
def execEsqr (rd rs1 : RegIx) (t : TwrIx) (s : State) : Out :=
  conclude (.esqr rd rs1 t) s (s.elemUnary rd rs1 t Fld.sqr)

/-- EINV: the zero element and an element without inverse raise DivisionByZero (R250). -/
def execEinv (rd rs1 : RegIx) (t : TwrIx) (s : State) : Out :=
  conclude (.einv rd rs1 t) s do
    let f ← s.needTower t
    raiseIf (runsPast rd.toNat f.k || runsPast rs1.toNat f.k) .illegalCommand
    let a ← s.needElem f rs1.toNat
    raiseIf (isZeroElem a) .divisionByZero
    let v ← orRaise (f.fld.inv a) .divisionByZero
    .ok (s.setElem f rd.toNat v)

/-- EPOW: the exponent is one RAW register (R251). -/
def execEpow (rd rs1 rs2 : RegIx) (t : TwrIx) (s : State) : Out :=
  conclude (.epow rd rs1 rs2 t) s do
    let f ← s.needTower t
    raiseIf (runsPast rd.toNat f.k || runsPast rs1.toNat f.k) .illegalCommand
    let a ← s.needElem f rs1.toNat
    let e ← s.needRaw rs2
    .ok (s.setElem f rd.toNat (f.fld.pow a e))

/-- EISZ (R252). -/
def execEisz (rs1 : RegIx) (t : TwrIx) (s : State) : Out :=
  conclude (.eisz rs1 t) s do
    let f ← s.needTower t
    raiseIf (runsPast rs1.toNat f.k) .illegalCommand
    let a ← s.needElem f rs1.toNat
    .ok (s.setT (isZeroElem a))

/-- EEQ (R253). -/
def execEeq (rs1 rs2 : RegIx) (t : TwrIx) (s : State) : Out :=
  conclude (.eeq rs1 rs2 t) s do
    let f ← s.needTower t
    raiseIf (runsPast rs1.toNat f.k || runsPast rs2.toNat f.k) .illegalCommand
    let a ← s.needElem f rs1.toNat
    let b ← s.needElem f rs2.toNat
    .ok (s.setT (a == b))

/-- ECONJ: quadratic tiers only, tested before the register ranges (R254). -/
def execEconj (rd rs1 : RegIx) (t : TwrIx) (s : State) : Out :=
  conclude (.econj rd rs1 t) s do
    let f ← s.needTower t
    raiseIf (!f.fld.isQuadratic) .invalidParameter
    raiseIf (runsPast rd.toNat f.k || runsPast rs1.toNat f.k) .illegalCommand
    let a ← s.needElem f rs1.toNat
    .ok (s.setElem f rd.toNat (f.fld.conj a))

/-- EFROB: the Frobenius formula j times (R255). -/
def execEfrob (rd rs1 : RegIx) (j : Field6) (t : TwrIx) (s : State) : Out :=
  conclude (.efrob rd rs1 j t) s (s.elemUnary rd rs1 t (fun f a => f.frobs j.toNat a))

/-- The inverses of a list of elements, nothing when one of them is zero or has none (R256). -/
def invAllElems (f : Fld) : List Elem → Option (List Elem)
  | [] => some []
  | a :: rest =>
    if isZeroElem a then none
    else
      match f.inv a, invAllElems f rest with
      | some v, some vs => some (v :: vs)
      | _, _ => none

/-- EBINV: n independent inverses, all or nothing (R256). -/
def execEbinv (rd rs1 : RegIx) (cnt : Field6) (t : TwrIx) (s : State) : Out :=
  let n := countOf cnt
  conclude (.ebinv rd rs1 cnt t) s do
    let f ← s.needTower t
    raiseIf (runsPast rs1.toNat (n * f.k) || runsPast rd.toNat (n * f.k)) .illegalCommand
    raiseIf (!s.tagged f rs1.toNat (n * f.k)) .incompatibleContext
    let vs ← orRaise (invAllElems f.fld (s.elemsAt f rs1.toNat n)) .divisionByZero
    .ok (s.setElems f rd.toNat vs)

end Sys2Proof.Machine
end

