-- ==== Sys2Proof/Machine/Integer.lean ====
section
/-! DEFINITION. Integer commands (FixedWidthInteger): 41_integer.md R160 to R171. Sources are read whatever their tags;
destinations are written with tag RAW, reduced to BITS bits by the one register write. -/

namespace Sys2Proof.Machine

/-- ADD, C the carry (R161). -/
def execAdd (rd rs1 rs2 : RegIx) (s : State) : Out :=
  let a := s.val rs1
  let b := s.val rs2
  conclude (.add rd rs1 rs2) s (.ok ((s.setRaw rd (a + b)).setC (carryOut s.par.bits a b)))

/-- SUB, C the borrow (R162). -/
def execSub (rd rs1 rs2 : RegIx) (s : State) : Out :=
  let a := s.val rs1
  let b := s.val rs2
  conclude (.sub rd rs1 rs2) s (.ok ((s.setRaw rd (subMod (2 ^ s.par.bits) a b)).setC (borrowOut a b)))

/-- MUL: the full product in ACC (R163). -/
def execMul (rs1 rs2 : RegIx) (s : State) : Out :=
  conclude (.mul rs1 rs2) s (.ok { s with acc := s.val rs1 * s.val rs2 })

/-- SHL1 (R164). -/
def execShl1 (rd rs1 : RegIx) (s : State) : Out :=
  let a := s.val rs1
  conclude (.shl1 rd rs1) s (.ok ((s.setRaw rd (2 * a)).setC (shiftedOutLeft s.par.bits a 1)))

/-- SHR1, logical (R165). -/
def execShr1 (rd rs1 : RegIx) (s : State) : Out :=
  let a := s.val rs1
  conclude (.shr1 rd rs1) s (.ok ((s.setRaw rd (a / 2)).setC (shiftedOutRight s.par.bits a 1)))

/-- The result of SHL by a full count: 0 from BITS on (R166). -/
def shiftLeft (bits a n : Nat) : Nat := if bits ≤ n then 0 else a * 2 ^ n

/-- The result of SHR by a full count: 0 from BITS on (R167). -/
def shiftRight (bits a n : Nat) : Nat := if bits ≤ n then 0 else a / 2 ^ n

/-- SHL by the whole value of x[rs2] (R166). -/
def execShl (rd rs1 rs2 : RegIx) (s : State) : Out :=
  let a := s.val rs1
  let n := s.val rs2
  conclude (.shl rd rs1 rs2) s
    (.ok ((s.setRaw rd (shiftLeft s.par.bits a n)).setC (shiftedOutLeft s.par.bits a n)))

/-- SHR by the whole value of x[rs2], logical (R167). -/
def execShr (rd rs1 rs2 : RegIx) (s : State) : Out :=
  let a := s.val rs1
  let n := s.val rs2
  conclude (.shr rd rs1 rs2) s
    (.ok ((s.setRaw rd (shiftRight s.par.bits a n)).setC (shiftedOutRight s.par.bits a n)))

/-- CMP: Z and L, unsigned (R168). -/
def execCmp (rs1 rs2 : RegIx) (s : State) : Out :=
  let a := s.val rs1
  let b := s.val rs2
  conclude (.cmp rs1 rs2) s (.ok (s.setZL (equalFlag a b) (belowFlag a b)))

/-- BITLEN (R169). -/
def execBitlen (rd rs1 : RegIx) (s : State) : Out :=
  conclude (.bitlen rd rs1) s (.ok (s.setRaw rd (bitLength (s.val rs1))))

/-- BTST: T, 0 for an index from BITS on (R170). -/
def execBtst (rs1 rs2 : RegIx) (s : State) : Out :=
  conclude (.btst rs1 rs2) s (.ok (s.setT (bitFlag s.par.bits (s.val rs1) (s.val rs2))))

end Sys2Proof.Machine
end

