-- ==== Sys2Proof/Machine/Modular.lean ====
section
/-! DEFINITION. Modular commands (ModularContext): 42_modular.md R180 to R196. The results do not depend on the strategy
of the context (R195). -/

namespace Sys2Proof.Machine

/-- CTXDEF (R180). -/
def execCtxdef (c : CtxIx) (rs1 : RegIx) (strat : Strategy) (s : State) : Out :=
  let m := s.val rs1
  conclude (.ctxdef c rs1 strat) s do
    raiseIf (s.ctxAt c).isSome .invalidParameter
    raiseIf (strat == .mont && (decide (m % 2 = 0) || decide (m ≤ 1))) .invalidParameter
    raiseIf (strat == .barr && decide (m = 0)) .invalidParameter
    .ok (s.setCtx c (makeCtx s.par strat m))

/-- REDC: ACC * R^(-1) mod m (R183). -/
def execRedc (rd : RegIx) (c : CtxIx) (s : State) : Out :=
  conclude (.redc rd c) s do
    let e ← s.needCtx c
    raiseIf (!e.isMont) .invalidParameter
    raiseIf (decide (e.m * 2 ^ s.par.bits ≤ s.acc)) .outOfRange
    .ok (s.setRaw rd (montReduce s.par.bits e.m s.acc))

/-- BRED: ACC mod m (R184). -/
def execBred (rd : RegIx) (c : CtxIx) (s : State) : Out :=
  conclude (.bred rd c) s do
    let e ← s.needCtx c
    raiseIf e.isMont .invalidParameter
    raiseIf (!e.barrettAdmits s.par.limbBits s.acc) .outOfRange
    .ok (s.setRaw rd (s.acc % e.m))

/-- MODADD (R185). -/
def execModadd (rd rs1 rs2 : RegIx) (c : CtxIx) (s : State) : Out :=
  let a := s.val rs1
  let b := s.val rs2
  conclude (.modadd rd rs1 rs2 c) s do
    let e ← s.needCtx c
    raiseIf (decide (e.m ≤ a) || decide (e.m ≤ b)) .outOfRange
    .ok (s.setRaw rd ((a + b) % e.m))

/-- MODSUB: the least non-negative residue (R186). -/
def execModsub (rd rs1 rs2 : RegIx) (c : CtxIx) (s : State) : Out :=
  let a := s.val rs1
  let b := s.val rs2
  conclude (.modsub rd rs1 rs2 c) s do
    let e ← s.needCtx c
    raiseIf (decide (e.m ≤ a) || decide (e.m ≤ b)) .outOfRange
    .ok (s.setRaw rd (subMod e.m a b))

/-- MODMUL; ACC is not changed (R187). -/
def execModmul (rd rs1 rs2 : RegIx) (c : CtxIx) (s : State) : Out :=
  let a := s.val rs1
  let b := s.val rs2
  conclude (.modmul rd rs1 rs2 c) s do
    let e ← s.needCtx c
    raiseIf (decide (e.m ≤ a) || decide (e.m ≤ b)) .outOfRange
    .ok (s.setRaw rd (a * b % e.m))

/-- MODINV (R188). -/
def execModinv (rd rs1 : RegIx) (c : CtxIx) (s : State) : Out :=
  let a := s.val rs1
  conclude (.modinv rd rs1 c) s do
    let e ← s.needCtx c
    raiseIf (decide (e.m ≤ a)) .outOfRange
    let v ← orRaise (modInv e.m a) .divisionByZero
    .ok (s.setRaw rd v)

/-- MODPOW: the exponent is any BITS-bit value (R190). -/
def execModpow (rd rs1 rs2 : RegIx) (c : CtxIx) (s : State) : Out :=
  let a := s.val rs1
  conclude (.modpow rd rs1 rs2 c) s do
    let e ← s.needCtx c
    raiseIf (decide (e.m ≤ a)) .outOfRange
    .ok (s.setRaw rd (modPow e.m a (s.val rs2)))

/-- The register value of a Jacobi symbol, `j mod 2^BITS` (R189). -/
def jacobiValue (bits : Nat) (j : Int) : Nat := (j % (2 ^ bits : Nat)).toNat

/-- JACOBI: the symbol in x[rd], Z and L (R189). -/
def execJacobi (rd rs1 rs2 : RegIx) (s : State) : Out :=
  let n := s.val rs2
  let j := jacobi (s.val rs1) n
  conclude (.jacobi rd rs1 rs2) s do
    raiseIf (decide (n % 2 = 0) || decide (n ≤ 1)) .invalidParameter
    .ok ((s.setRaw rd (jacobiValue s.par.bits j)).setZL (jacobiZero j) (jacobiMinus j))

end Sys2Proof.Machine
end

