-- ==== Sys2Proof/Machine/Miller.lean ====
section
/-! DEFINITION. The pairing engine by value: precomputation, line evaluation, Miller loop: 47_pairing.md R322 to R326,
R331, R332. -/

namespace Sys2Proof.Machine

/-- The two equalities a twist of the given type needs, all in GT (R322). -/
def twistEqualities (gt : Fld) (ty : Twist) (a b a' b' omega : Elem) : Bool :=
  let w2 := gt.sqr omega
  let w4 := gt.sqr w2
  let w6 := gt.mul w4 w2
  match ty with
  | .typeD => gt.mul (gt.embed a') w4 == gt.embed a && gt.mul (gt.embed b') w6 == gt.embed b
  | .typeM => gt.embed a' == gt.mul (gt.embed a) w4 && gt.embed b' == gt.mul (gt.embed b) w6
  | .noTwist => false

/-- The G1 precomputation, nothing where R323 raises InvalidPairingInput. -/
def precomputeG1 (f : Fld) (a b : Elem) (p : JPoint) : Option (Elem × Elem) :=
  if p.isInf || !onCurve f a b p then none else some (affineBy f p (f.invOrFree p.z))

/-- The tangent at T and 2T, nothing at a degenerate step (R324). -/
def doublingStep (f : Fld) (a : Elem) (t : JPoint) : Option (Line × JPoint) :=
  if t.isInf || isZeroElem t.y then none
  else
    let z2 := f.sqr t.z
    let m := f.add (f.times 3 (f.sqr t.x)) (f.mul a (f.sqr z2))
    let line : Line :=
      { c0 := f.times 2 (f.mul t.y (f.mul z2 t.z))
        c1 := f.neg (f.mul m z2)
        c3 := f.sub (f.mul m t.x) (f.times 2 (f.sqr t.y)) }
    some (line, double f a t)

/-- The chord through T and the affine point (x2, y2), and T + Q, nothing at a degenerate step (R324). -/
def additionStep (f : Fld) (a : Elem) (x2 y2 : Elem) (t : JPoint) : Option (Line × JPoint) :=
  if t.isInf then none
  else
    let z2 := f.sqr t.z
    let h := f.sub (f.mul x2 z2) t.x
    let s := f.sub (f.mul y2 (f.mul z2 t.z)) t.y
    if isZeroElem h then none
    else
      let line : Line :=
        { c0 := f.mul t.z h
          c1 := f.neg s
          c3 := f.sub (f.mul s x2) (f.mul (f.mul y2 t.z) h) }
      some (line, addPoints f a t (affinePoint f x2 y2))

/-- The steps for bits n-1 .. 0 of the loop count, the lines in order (R324). -/
def lineSteps (f : Fld) (a : Elem) (x2 y2 : Elem) (loop : Nat) : Nat → JPoint → Option (List Line)
  | 0, _ => some []
  | n + 1, t =>
    match doublingStep f a t with
    | none => none
    | some (l1, t1) =>
      if loop.testBit n then
        match additionStep f a x2 y2 t1 with
        | none => none
        | some (l2, t2) =>
          match lineSteps f a x2 y2 loop n t2 with
          | none => none
          | some rest => some (l1 :: l2 :: rest)
      else
        match lineSteps f a x2 y2 loop n t1 with
        | none => none
        | some rest => some (l1 :: rest)

/-- The G2 precomputation, nothing where R324 raises InvalidPairingInput. The top bit of the loop count is consumed by
T = Q. -/
def precomputeG2 (f : Fld) (a b : Elem) (loop : Nat) (q : JPoint) : Option (List Line) :=
  if q.isInf || !onCurve f a b q then none
  else
    let (x2, y2) := affineBy f q (f.invOrFree q.z)
    lineSteps f a x2 y2 loop (bitLength loop - 1) (affinePoint f x2 y2)

/-- The value of a line at a G1 point, by twist type (R325). -/
def evalLine (gt : Fld) (ty : Twist) (omega : Elem) (l : Line) (xP yP : Elem) : Elem :=
  let c0 := gt.embed l.c0
  let c1 := gt.embed l.c1
  let c3 := gt.embed l.c3
  let x := gt.embed xP
  let y := gt.embed yP
  let w2 := gt.sqr omega
  let w3 := gt.mul w2 omega
  match ty with
  | .typeM => gt.add (gt.add c3 (gt.mul (gt.mul c1 x) w2)) (gt.mul (gt.mul c0 y) w3)
  | .typeD => gt.add (gt.add (gt.mul c0 y) (gt.mul (gt.mul c1 x) omega)) (gt.mul c3 w3)
  | .noTwist => gt.add (gt.add (gt.mul c0 y) (gt.mul (gt.mul c1 x) omega)) (gt.mul c3 w3)

/-- One pair of precomputations: the affine G1 pair and the G2 lines (R326). -/
structure PairPre where
  xP : Elem
  yP : Elem
  lines : List Line
deriving DecidableEq, Repr

/-- Multiply line `idx` of each pair into the accumulator, in order (R326). -/
def mulLines (gt : Fld) (ty : Twist) (omega : Elem) (idx : Nat) : List PairPre → Elem → Elem
  | [], f => f
  | p :: rest, f =>
    let line := p.lines.getD idx { c0 := [], c1 := [], c3 := [] }
    mulLines gt ty omega idx rest (gt.mul f (evalLine gt ty omega line p.xP p.yP))

/-- The loop of R326 for bits n-1 .. 0 of the loop count, with the accumulator and the index of the next line. -/
def millerSteps (gt : Fld) (ty : Twist) (omega : Elem) (pairs : List PairPre) (loop : Nat) : Nat → Elem → Nat → Elem
  | 0, f, _ => f
  | n + 1, f, idx =>
    let f1 := mulLines gt ty omega idx pairs (gt.mul f f)
    if loop.testBit n then
      millerSteps gt ty omega pairs loop n (mulLines gt ty omega (idx + 1) pairs f1) (idx + 2)
    else millerSteps gt ty omega pairs loop n f1 (idx + 1)

/-- The Miller loop with its terminal steps, nothing where R326 raises InvalidPairingInput (R326, R331). -/
def millerLoop (gt : Fld) (ty : Twist) (prg : Prg) (pairs : List PairPre) : Option Elem :=
  let f := Config.extraSteps (millerSteps gt ty prg.omega pairs prg.loop (bitLength prg.loop - 1) gt.one 0)
  if prg.neg then
    if isZeroElem f then none else some (gt.invOrFree f)
  else some f

end Sys2Proof.Machine
end

