-- ==== Sys2Proof/Machine/Pairing.lean ====
section
/-! DEFINITION. Pairing commands: 47_pairing.md R320 to R335. -/

namespace Sys2Proof.Machine

/-- The structural conditions of PRGDEF on two valid curves and a valid tower: G1 over the prime field at the bottom of
GT and untwisted, G2 a twist over a tier strictly below GT, equal group orders (R321 check 2). -/
def pairingStructure (s : State) (c1 c2 : CurveView) (gt : FieldView) (t : TwrIx) : Bool :=
  decide (c1.crv.fd = .prime gt.root) && decide (c1.crv.twist = .noTwist) && decide (c2.crv.twist ≠ .noTwist) &&
  decide (c2.crv.fd ∈ s.tiersBelow 9 (.tower t)) && decide (c1.crv.r = c2.crv.r)

/-- PRGDEF (R321). -/
def execPrgdef (g1 g2 : CrvIx) (neg : Bool) (rs1 rs2 : RegIx) (t : TwrIx) (s : State) : Out :=
  conclude (.prgdef g1 g2 neg rs1 rs2 t) s do
    raiseIf s.prg.isSome .invalidParameter
    let c1 ← s.needCurve g1
    let c2 ← s.needCurve g2
    let gt ← s.needTower t
    raiseIf (!pairingStructure s c1 c2 gt t) .invalidParameter
    raiseIf (runsPast rs2.toNat gt.k) .illegalCommand
    let loop ← s.needRaw rs1
    let omega ← s.needElem gt rs2.toNat
    raiseIf (decide (loop = 0)) .invalidParameter
    raiseIf (decide ((gt.ctx.m ^ gt.k - 1) % c1.crv.r ≠ 0)) .invalidParameter
    raiseIf (!twistEqualities gt.fld c2.crv.twist c1.crv.a c1.crv.b c2.crv.a c2.crv.b omega) .invalidParameter
    .ok (s.setPrg
      { g1 := g1, g2 := g2, twr := t, neg := neg, loop := loop, omega := omega,
        e := (gt.ctx.m ^ gt.k - 1) / c1.crv.r })

/-- PRECG1 (R327). -/
def execPrecg1 (slot : SlotIx) (rs1 : RegIx) (s : State) : Out :=
  conclude (.precg1 slot rs1) s do
    let v ← s.needPairing
    raiseIf (runsPast rs1.toNat (3 * v.g1.fv.k)) .illegalCommand
    let p ← s.needPoint v.g1.fv rs1.toNat
    let q ← orRaise (precomputeG1 v.g1.fv.fld v.g1.crv.a v.g1.crv.b p) .invalidPairingInput
    .ok (s.setPre slot (.g1 q.1 q.2))

/-- PRECG2 (R328). -/
def execPrecg2 (slot : SlotIx) (rs1 : RegIx) (s : State) : Out :=
  conclude (.precg2 slot rs1) s do
    let v ← s.needPairing
    raiseIf (runsPast rs1.toNat (3 * v.g2.fv.k)) .illegalCommand
    let q ← s.needPoint v.g2.fv rs1.toNat
    let lines ← orRaise (precomputeG2 v.g2.fv.fld v.g2.crv.a v.g2.crv.b v.prg.loop q) .invalidPairingInput
    .ok (s.setPre slot (.g2 lines))

/-- A G1 slot and a G2 slot as a pair, nothing when one is invalid or of the wrong kind (R329). -/
def State.pairOf (s : State) (s1 s2 : SlotIx) : Option PairPre :=
  match s.preAt s1, s.preAt s2 with
  | some (.g1 xP yP), some (.g2 lines) => some { xP := xP, yP := yP, lines := lines }
  | _, _ => none

/-- The Miller loop of a configuration over pairs of precomputations (R326). -/
def PairingView.miller (v : PairingView) (pairs : List PairPre) : Option Elem :=
  millerLoop v.gt.fld v.g2.crv.twist v.prg pairs

/-- MLOOP (R329). -/
def execMloop (rd : RegIx) (s1 s2 : SlotIx) (s : State) : Out :=
  conclude (.mloop rd s1 s2) s do
    let v ← s.needPairing
    let p ← orRaise (s.pairOf s1 s2) .invalidParameter
    raiseIf (runsPast rd.toNat v.gt.k) .illegalCommand
    let f ← orRaise (v.miller [p]) .invalidPairingInput
    .ok (s.setElem v.gt rd.toNat f)

/-- DMLOOP (R330). -/
def execDmloop (rd : RegIx) (s1a s2a s1b s2b : SlotIx) (s : State) : Out :=
  conclude (.dmloop rd s1a s2a s1b s2b) s do
    let v ← s.needPairing
    let p ← orRaise (s.pairOf s1a s2a) .invalidParameter
    let q ← orRaise (s.pairOf s1b s2b) .invalidParameter
    raiseIf (runsPast rd.toNat v.gt.k) .illegalCommand
    let f ← orRaise (v.miller [p, q]) .invalidPairingInput
    .ok (s.setElem v.gt rd.toNat f)

/-- FEXP (R332). -/
def execFexp (rd rs1 : RegIx) (s : State) : Out :=
  conclude (.fexp rd rs1) s do
    let v ← s.needPairing
    raiseIf (runsPast rd.toNat v.gt.k || runsPast rs1.toNat v.gt.k) .illegalCommand
    let f ← s.needElem v.gt rs1.toNat
    .ok (s.setElem v.gt rd.toNat (v.gt.fld.pow f v.prg.e))

/-- RPAIR: both precomputations are temporary; no slot is read or written (R333). -/
def execRpair (rd rs1 rs2 : RegIx) (s : State) : Out :=
  conclude (.rpair rd rs1 rs2) s do
    let v ← s.needPairing
    raiseIf (runsPast rd.toNat v.gt.k || runsPast rs1.toNat (3 * v.g1.fv.k) || runsPast rs2.toNat (3 * v.g2.fv.k))
      .illegalCommand
    let p ← s.needPoint v.g1.fv rs1.toNat
    let q ← s.needPoint v.g2.fv rs2.toNat
    let pre1 ← orRaise (precomputeG1 v.g1.fv.fld v.g1.crv.a v.g1.crv.b p) .invalidPairingInput
    let lines ← orRaise (precomputeG2 v.g2.fv.fld v.g2.crv.a v.g2.crv.b v.prg.loop q) .invalidPairingInput
    let f ← orRaise (v.miller [{ xP := pre1.1, yP := pre1.2, lines := lines }]) .invalidPairingInput
    .ok (s.setElem v.gt rd.toNat (v.gt.fld.pow f v.prg.e))

end Sys2Proof.Machine
end

