-- ==== Sys2Proof/Machine/PrimeField.lean ====
section
/-! DEFINITION. Prime-field commands (PrimeFieldElement): 43_prime_field.md R210 to R229. Results are logical values in
[0, m), stored as rep(c, a) with tag FP(c); no command of the family changes ACC (R210). -/

namespace Sys2Proof.Machine

/-- FZERO (R211). -/
def execFzero (rd : RegIx) (c : CtxIx) (s : State) : Out :=
  conclude (.fzero rd c) s do
    let e ← s.needCtx c
    .ok (s.setFp (primeView c e) rd 0)

/-- FONE (R212). -/
def execFone (rd : RegIx) (c : CtxIx) (s : State) : Out :=
  conclude (.fone rd c) s do
    let e ← s.needCtx c
    .ok (s.setFp (primeView c e) rd (1 % e.m))

/-- FFROMI (R213). -/
def execFfromi (rd rs1 : RegIx) (c : CtxIx) (s : State) : Out :=
  let a := s.val rs1
  conclude (.ffromi rd rs1 c) s do
    let e ← s.needCtx c
    raiseIf (decide (e.m ≤ a)) .outOfRange
    .ok (s.setFp (primeView c e) rd a)

/-- FTOI (R214). -/
def execFtoi (rd rs1 : RegIx) (s : State) : Out :=
  conclude (.ftoi rd rs1) s do
    let f ← s.needFp rs1
    .ok (s.setRaw rd (s.fpVal f rs1))

/-- FADD (R215). -/
def execFadd (rd rs1 rs2 : RegIx) (s : State) : Out :=
  conclude (.fadd rd rs1 rs2) s do
    let f ← s.needFp rs1
    s.needSameTag f rs2
    .ok (s.setFp f rd ((s.fpVal f rs1 + s.fpVal f rs2) % f.ctx.m))

/-- FSUB (R216). -/
def execFsub (rd rs1 rs2 : RegIx) (s : State) : Out :=
  conclude (.fsub rd rs1 rs2) s do
    let f ← s.needFp rs1
    s.needSameTag f rs2
    .ok (s.setFp f rd (subMod f.ctx.m (s.fpVal f rs1) (s.fpVal f rs2)))

/-- FNEG (R217). -/
def execFneg (rd rs1 : RegIx) (s : State) : Out :=
  conclude (.fneg rd rs1) s do
    let f ← s.needFp rs1
    .ok (s.setFp f rd (subMod f.ctx.m 0 (s.fpVal f rs1)))

/-- FMUL (R218). -/
def execFmul (rd rs1 rs2 : RegIx) (s : State) : Out :=
  conclude (.fmul rd rs1 rs2) s do
    let f ← s.needFp rs1
    s.needSameTag f rs2
    .ok (s.setFp f rd (s.fpVal f rs1 * s.fpVal f rs2 % f.ctx.m))

/-- FSQR (R219). -/
def execFsqr (rd rs1 : RegIx) (s : State) : Out :=
  conclude (.fsqr rd rs1) s do
    let f ← s.needFp rs1
    .ok (s.setFp f rd (s.fpVal f rs1 * s.fpVal f rs1 % f.ctx.m))

/-- FINV (R220). -/
def execFinv (rd rs1 : RegIx) (s : State) : Out :=
  conclude (.finv rd rs1) s do
    let f ← s.needFp rs1
    let v ← orRaise (modInv f.ctx.m (s.fpVal f rs1)) .divisionByZero
    .ok (s.setFp f rd v)

/-- FPOW: the exponent is a RAW integer (R221). -/
def execFpow (rd rs1 rs2 : RegIx) (s : State) : Out :=
  conclude (.fpow rd rs1 rs2) s do
    let f ← s.needFp rs1
    let e ← s.needRaw rs2
    .ok (s.setFp f rd (modPow f.ctx.m (s.fpVal f rs1) e))

/-- FSQRT: T tells whether there is a root; without one the destination and its tag are unchanged (R222). -/
def execFsqrt (rd rs1 : RegIx) (s : State) : Out :=
  conclude (.fsqrt rd rs1) s do
    let f ← s.needFp rs1
    match leastRoot f.ctx.m (s.fpVal f rs1) with
    | none => .ok (s.setT false)
    | some r => .ok ((s.setFp f rd r).setT true)

/-- FISZ (R224). -/
def execFisz (rs1 : RegIx) (s : State) : Out :=
  conclude (.fisz rs1) s do
    let f ← s.needFp rs1
    .ok (s.setT (decide (s.fpVal f rs1 = 0)))

/-- FEQ (R225). -/
def execFeq (rs1 rs2 : RegIx) (s : State) : Out :=
  conclude (.feq rs1 rs2) s do
    let f ← s.needFp rs1
    s.needSameTag f rs2
    .ok (s.setT (decide (s.fpVal f rs1 = s.fpVal f rs2)))

/-- FENC: the logical value, big-endian, in ceil(mbits/8) bytes (R226). -/
def execFenc (rd rs1 : RegIx) (s : State) : Out :=
  conclude (.fenc rd rs1) s do
    let f ← s.needFp rd
    s.writeMem (s.val rs1) (beBytes (s.fpVal f rd) f.ctx.encodedBytes)

/-- FDEC: the memory range is checked before the value (R227). -/
def execFdec (rd rs1 : RegIx) (c : CtxIx) (s : State) : Out :=
  conclude (.fdec rd rs1 c) s do
    let e ← s.needCtx c
    let bytes ← s.readMem (s.val rs1) e.encodedBytes
    raiseIf (decide (e.m ≤ beNat bytes)) .outOfRange
    .ok (s.setFp (primeView c e) rd (beNat bytes))

/-- The inverses of a list of values, nothing when one of them has none (R228). -/
def invAll (m : Nat) : List Nat → Option (List Nat)
  | [] => some []
  | a :: rest =>
    match modInv m a, invAll m rest with
    | some v, some vs => some (v :: vs)
    | _, _ => none

/-- FBINV: n independent inverses, all or nothing (R228). -/
def execFbinv (rd rs1 : RegIx) (cnt : Field6) (s : State) : Out :=
  let n := countOf cnt
  conclude (.fbinv rd rs1 cnt) s do
    raiseIf (runsPast rs1.toNat n || runsPast rd.toNat n) .illegalCommand
    let f ← s.needFp rs1
    raiseIf (!s.tagged f rs1.toNat n) .incompatibleContext
    let vs ← orRaise (invAll f.ctx.m ((List.range n).map (fun j => s.coordAt f (rs1.toNat + j)))) .divisionByZero
    .ok (s.setRegs rd.toNat ((List.range n).map (fun j => { val := s.repOf f (vs.getD j 0), tag := f.tag })))

end Sys2Proof.Machine
end

