-- ==== Sys2Proof/Machine/Wnaf.lean ====
section
/-! DEFINITION. wNAF commands: 46_wnaf.md R310 to R313. -/

namespace Sys2Proof.Machine

/-- WNAFENC: the digits as 16-bit little-endian numbers, their count in x[rd] (R311). -/
def execWnafenc (rd rs1 rs2 : RegIx) (w : BitVec 4) (s : State) : Out :=
  conclude (.wnafenc rd rs1 rs2 w) s do
    raiseIf (decide (w.toNat = 0)) .invalidParameter
    let k ← s.needRaw rs1
    let s' ← s.writeMem (s.val rs2) (digitsBytes (wnaf k w.toNat))
    .ok (s'.setRaw rd (wnaf k w.toNat).length)

/-- WNAFDEC: the count is checked before the memory range, the sum after the read (R312). -/
def execWnafdec (rd rs1 rs2 : RegIx) (s : State) : Out :=
  conclude (.wnafdec rd rs1 rs2) s do
    let n ← s.needRaw rs1
    raiseIf (decide (s.par.bits + 1 < n)) .outOfRange
    let bytes ← s.readMem (s.val rs2) (2 * n)
    let sum := digitSum (digitsOf bytes)
    raiseIf (decide (sum < 0) || decide ((2 ^ s.par.bits : Nat) ≤ sum)) .outOfRange
    .ok (s.setRaw rd sum.toNat)

end Sys2Proof.Machine
end

