-- ==== Sys2Proof/Machine/Dispatch.lean ====
section
/-! DEFINITION. The one dispatch from commands to their meanings: one arm per constructor of `Instr`. -/

namespace Sys2Proof.Machine

def exec (i : Instr) (s : State) : Host.Outcome State Fault Refusal :=
  match i with
  | .nop => Sys2Proof.Machine.execNop s
  | .halt => Sys2Proof.Machine.execHalt s
  | .jmp target => Sys2Proof.Machine.execJmp target s
  | .bs flag target => Sys2Proof.Machine.execBs flag target s
  | .bc flag target => Sys2Proof.Machine.execBc flag target s
  | .li rd imm => Sys2Proof.Machine.execLi rd imm s
  | .mov rd rs1 cnt => Sys2Proof.Machine.execMov rd rs1 cnt s
  | .ld rd rs1 imm => Sys2Proof.Machine.execLd rd rs1 imm s
  | .st rd rs1 imm => Sys2Proof.Machine.execSt rd rs1 imm s
  | .moval rd => Sys2Proof.Machine.execMoval rd s
  | .movah rd => Sys2Proof.Machine.execMovah rd s
  | .setal rs1 => Sys2Proof.Machine.execSetal rs1 s
  | .setah rs1 => Sys2Proof.Machine.execSetah rs1 s
  | .csrr rd csr => Sys2Proof.Machine.execCsrr rd csr s
  | .csrw rd csr => Sys2Proof.Machine.execCsrw rd csr s
  | .add rd rs1 rs2 => Sys2Proof.Machine.execAdd rd rs1 rs2 s
  | .sub rd rs1 rs2 => Sys2Proof.Machine.execSub rd rs1 rs2 s
  | .mul rs1 rs2 => Sys2Proof.Machine.execMul rs1 rs2 s
  | .shl1 rd rs1 => Sys2Proof.Machine.execShl1 rd rs1 s
  | .shr1 rd rs1 => Sys2Proof.Machine.execShr1 rd rs1 s
  | .shl rd rs1 rs2 => Sys2Proof.Machine.execShl rd rs1 rs2 s
  | .shr rd rs1 rs2 => Sys2Proof.Machine.execShr rd rs1 rs2 s
  | .cmp rs1 rs2 => Sys2Proof.Machine.execCmp rs1 rs2 s
  | .bitlen rd rs1 => Sys2Proof.Machine.execBitlen rd rs1 s
  | .btst rs1 rs2 => Sys2Proof.Machine.execBtst rs1 rs2 s
  | .ctxdef c rs1 strat => Sys2Proof.Machine.execCtxdef c rs1 strat s
  | .redc rd c => Sys2Proof.Machine.execRedc rd c s
  | .bred rd c => Sys2Proof.Machine.execBred rd c s
  | .modadd rd rs1 rs2 c => Sys2Proof.Machine.execModadd rd rs1 rs2 c s
  | .modsub rd rs1 rs2 c => Sys2Proof.Machine.execModsub rd rs1 rs2 c s
  | .modmul rd rs1 rs2 c => Sys2Proof.Machine.execModmul rd rs1 rs2 c s
  | .modinv rd rs1 c => Sys2Proof.Machine.execModinv rd rs1 c s
  | .modpow rd rs1 rs2 c => Sys2Proof.Machine.execModpow rd rs1 rs2 c s
  | .jacobi rd rs1 rs2 => Sys2Proof.Machine.execJacobi rd rs1 rs2 s
  | .fzero rd c => Sys2Proof.Machine.execFzero rd c s
  | .fone rd c => Sys2Proof.Machine.execFone rd c s
  | .ffromi rd rs1 c => Sys2Proof.Machine.execFfromi rd rs1 c s
  | .ftoi rd rs1 => Sys2Proof.Machine.execFtoi rd rs1 s
  | .fadd rd rs1 rs2 => Sys2Proof.Machine.execFadd rd rs1 rs2 s
  | .fsub rd rs1 rs2 => Sys2Proof.Machine.execFsub rd rs1 rs2 s
  | .fneg rd rs1 => Sys2Proof.Machine.execFneg rd rs1 s
  | .fmul rd rs1 rs2 => Sys2Proof.Machine.execFmul rd rs1 rs2 s
  | .fsqr rd rs1 => Sys2Proof.Machine.execFsqr rd rs1 s
  | .finv rd rs1 => Sys2Proof.Machine.execFinv rd rs1 s
  | .fpow rd rs1 rs2 => Sys2Proof.Machine.execFpow rd rs1 rs2 s
  | .fsqrt rd rs1 => Sys2Proof.Machine.execFsqrt rd rs1 s
  | .fisz rs1 => Sys2Proof.Machine.execFisz rs1 s
  | .feq rs1 rs2 => Sys2Proof.Machine.execFeq rs1 rs2 s
  | .fenc rd rs1 => Sys2Proof.Machine.execFenc rd rs1 s
  | .fdec rd rs1 c => Sys2Proof.Machine.execFdec rd rs1 c s
  | .fbinv rd rs1 cnt => Sys2Proof.Machine.execFbinv rd rs1 cnt s
  | .twrdef t rs1 rs2 deg base => Sys2Proof.Machine.execTwrdef t rs1 rs2 deg base s
  | .ezero rd t => Sys2Proof.Machine.execEzero rd t s
  | .eone rd t => Sys2Proof.Machine.execEone rd t s
  | .eadd rd rs1 rs2 t => Sys2Proof.Machine.execEadd rd rs1 rs2 t s
  | .esub rd rs1 rs2 t => Sys2Proof.Machine.execEsub rd rs1 rs2 t s
  | .eneg rd rs1 t => Sys2Proof.Machine.execEneg rd rs1 t s
  | .emul rd rs1 rs2 t => Sys2Proof.Machine.execEmul rd rs1 rs2 t s
  | .esqr rd rs1 t => Sys2Proof.Machine.execEsqr rd rs1 t s
  | .einv rd rs1 t => Sys2Proof.Machine.execEinv rd rs1 t s
  | .epow rd rs1 rs2 t => Sys2Proof.Machine.execEpow rd rs1 rs2 t s
  | .eisz rs1 t => Sys2Proof.Machine.execEisz rs1 t s
  | .eeq rs1 rs2 t => Sys2Proof.Machine.execEeq rs1 rs2 t s
  | .econj rd rs1 t => Sys2Proof.Machine.execEconj rd rs1 t s
  | .efrob rd rs1 j t => Sys2Proof.Machine.execEfrob rd rs1 j t s
  | .ebinv rd rs1 cnt t => Sys2Proof.Machine.execEbinv rd rs1 cnt t s
  | .crvdef ix rs1 rs2 twist fd => Sys2Proof.Machine.execCrvdef ix rs1 rs2 twist fd s
  | .plift rd rs1 ix => Sys2Proof.Machine.execPlift rd rs1 ix s
  | .pdbl rd rs1 ix => Sys2Proof.Machine.execPdbl rd rs1 ix s
  | .padd rd rs1 rs2 ix => Sys2Proof.Machine.execPadd rd rs1 rs2 ix s
  | .pmadd rd rs1 rs2 ix => Sys2Proof.Machine.execPmadd rd rs1 rs2 ix s
  | .pneg rd rs1 ix => Sys2Proof.Machine.execPneg rd rs1 ix s
  | .pisinf rs1 ix => Sys2Proof.Machine.execPisinf rs1 ix s
  | .paff rd rs1 ix => Sys2Proof.Machine.execPaff rd rs1 ix s
  | .ponc rs1 ix => Sys2Proof.Machine.execPonc rs1 ix s
  | .peq rs1 rs2 ix => Sys2Proof.Machine.execPeq rs1 rs2 ix s
  | .psmul rd rs1 rs2 ix => Sys2Proof.Machine.execPsmul rd rs1 rs2 ix s
  | .psmul2 rd rs1 rs2 ix => Sys2Proof.Machine.execPsmul2 rd rs1 rs2 ix s
  | .pinf rd ix => Sys2Proof.Machine.execPinf rd ix s
  | .wnafenc rd rs1 rs2 w => Sys2Proof.Machine.execWnafenc rd rs1 rs2 w s
  | .wnafdec rd rs1 rs2 => Sys2Proof.Machine.execWnafdec rd rs1 rs2 s
  | .prgdef g1 g2 neg rs1 rs2 t => Sys2Proof.Machine.execPrgdef g1 g2 neg rs1 rs2 t s
  | .precg1 slot rs1 => Sys2Proof.Machine.execPrecg1 slot rs1 s
  | .precg2 slot rs1 => Sys2Proof.Machine.execPrecg2 slot rs1 s
  | .mloop rd s1 s2 => Sys2Proof.Machine.execMloop rd s1 s2 s
  | .dmloop rd s1a s2a s1b s2b => Sys2Proof.Machine.execDmloop rd s1a s2a s1b s2b s
  | .fexp rd rs1 => Sys2Proof.Machine.execFexp rd rs1 s
  | .rpair rd rs1 rs2 => Sys2Proof.Machine.execRpair rd rs1 rs2 s

end Sys2Proof.Machine
end

