-- ==== Sys2Proof/Machine/Step.lean ====
section
/-! DEFINITION. One step of the engine: fetch, decode, execute (40_control_move.md R145). -/

namespace Sys2Proof.Machine

/-- In RUN: the fetch fault when `PC >= CMWORDS`, IllegalCommand when the word is no command, else the command's rule
(R145). In IDLE, HALTED and FAULT the engine does nothing until the host acts (R30, U20). -/
def step (s : State) : Host.Outcome State Fault Refusal :=
  match s.run with
  | .run =>
    match s.fetch with
    | none => .next s.takeFetchFault
    | some w =>
      match decode w with
      | .error _ => .next (s.takeIllegal w)
      | .ok i => exec i s
  | .idle => .next s
  | .halted => .next s
  | .fault => .next s

/-- `s` with the command word `w` of `nbits` bits where `step` fetches next, and STATE = RUN so that it does (log 5). -/
def State.withFetchWord (s : State) (nbits w : Nat) : State := s.placeWord (BitVec.ofNat 32 (w % 2 ^ nbits))

end Sys2Proof.Machine
end

