-- ==== Sys2Proof/Machine/HostPort.lean ====
section
/-! DEFINITION. The host's side of the engine: the CSR window (10_state.md R36 to R47), the windows on CM and DM
(20_memory.md R77, R87), the reset input and CTRL.SRST (70_reset_and_hazards.md R390, R391), and runs in which host and
engine take turns. Log 9. -/

namespace Sys2Proof.Machine

/-! ### Reset while powered (R390, R391) -/

/-- `n` byte addresses from `addr` on. -/
def addressRange (addr n : Nat) : List Nat := (List.range n).map (fun j => addr + j)

/-- The DM bytes a command writes when it runs in this state, none when the command would fault: only ST, FENC and
WNAFENC write DM (R391, R396). -/
def State.targetBytes (s : State) : Instr → List Nat
  | .st _ rs1 imm =>
    let addr := s.val rs1 + imm.toNat
    if s.admits addr s.regBytes then addressRange addr s.regBytes else []
  | .fenc rd rs1 =>
    match s.needFp rd with
    | .error _ => []
    | .ok f =>
      if s.admits (s.val rs1) f.ctx.encodedBytes then addressRange (s.val rs1) f.ctx.encodedBytes else []
  | .wnafenc _ rs1 rs2 w =>
    let n := 2 * (wnaf (s.val rs1) w.toNat).length
    if w.toNat ≠ 0 ∧ s.tag rs1 = .raw ∧ s.admits (s.val rs2) n then addressRange (s.val rs2) n else []
  | .csrr _ _ | .csrw _ _ | .twrdef _ _ _ _ _ | .crvdef _ _ _ _ _
  | .nop | .halt | .jmp _ | .bs _ _ | .bc _ _ | .li _ _ | .mov _ _ _ | .ld _ _ _ | .moval _
  | .movah _ | .setal _ | .setah _ | .add _ _ _ | .sub _ _ _ | .mul _ _ | .shl1 _ _ | .shr1 _ _ | .shl _ _ _
  | .shr _ _ _ | .cmp _ _ | .bitlen _ _ | .btst _ _ | .ctxdef _ _ _ | .redc _ _ | .bred _ _ | .modadd _ _ _ _
  | .modsub _ _ _ _ | .modmul _ _ _ _ | .modinv _ _ _ | .modpow _ _ _ _ | .jacobi _ _ _ | .fzero _ _
  | .fone _ _ | .ffromi _ _ _ | .ftoi _ _ | .fadd _ _ _ | .fsub _ _ _ | .fneg _ _ | .fmul _ _ _ | .fsqr _ _
  | .finv _ _ | .fpow _ _ _ | .fsqrt _ _ | .fisz _ | .feq _ _ | .fdec _ _ _ | .fbinv _ _ _
  | .ezero _ _ | .eone _ _ | .eadd _ _ _ _ | .esub _ _ _ _ | .eneg _ _ _ | .emul _ _ _ _ | .esqr _ _ _
  | .einv _ _ _ | .epow _ _ _ _ | .eisz _ _ | .eeq _ _ _ | .econj _ _ _ | .efrob _ _ _ _ | .ebinv _ _ _ _
  | .plift _ _ _ | .pdbl _ _ _ | .padd _ _ _ _ | .pmadd _ _ _ _ | .pneg _ _ _ | .pisinf _ _ | .paff _ _ _
  | .ponc _ _ | .peq _ _ _ | .psmul _ _ _ _ | .psmul2 _ _ _ _ | .pinf _ _ | .wnafdec _ _ _
  | .prgdef _ _ _ _ _ _ | .precg1 _ _ | .precg2 _ _ | .mloop _ _ _ | .dmloop _ _ _ _ _ | .fexp _ _
  | .rpair _ _ _ => []

/-- The DM bytes of the command in flight: none unless STATE is RUN and CM[PC] holds a command (R391). -/
def State.abandoned (s : State) : List Nat :=
  match s.run with
  | .run =>
    match s.fetch with
    | none => []
    | some w =>
      match decode w with
      | .error _ => []
      | .ok i => s.targetBytes i
  | .idle | .halted | .fault => []

/-- The listed bytes take free values (R391, U5). -/
def State.spoil (s : State) : List Nat → State
  | [] => s
  | a :: rest => State.spoil { s with dm := Memory.store s.dm a (Config.abandonedByte s.fresh a) } rest

/-- A reset of the powered engine, by SRST or by the reset input: every value of R52, CM and DM kept but for the bytes of
an abandoned command (R390, R391). -/
def State.srst (s : State) : State :=
  let dm := (s.spoil s.abandoned).dm
  { State.resetWith s.par with
    cm := s.cm
    dm := dm
    fresh := match s.run with
      | .run => s.fresh + 1
      | .idle | .halted | .fault => s.fresh }

/-! ### What the host reads -/

/-- What the host reads from a CSR by number while STATE is not RUN; CTRL shows IE in bit 2 (R36 to R47). -/
def State.hostCsrValue (s : State) (n : Nat) : Nat := if n = 9 then 4 * s.ie.toNat else s.csrValue n

/-- Host read `k` of the register window at byte offset `off` (R47, R87): an offset that holds no CSR reads 0; in RUN
everything but STATUS reads a free value (log 11). -/
def State.hostReadCsr (s : State) (k off : Nat) : Word :=
  if s.run = .run ∧ off ≠ 8 then Config.hostReadFree k off
  else if off % 4 = 0 then BitVec.ofNat 32 (s.hostCsrValue (off / 4)) else 0#32

/-- Host read `k` of CM[i]; free in RUN and outside CM (R87, log 11, log 12). -/
def State.hostReadCm (s : State) (k i : Nat) : Word :=
  if s.run = .run ∨ s.par.cmWords ≤ i then Config.hostReadFree k i else s.wordAt i

/-- Host read `k` of DM[a]; free in RUN and outside DM (R87, log 11, log 12). -/
def State.hostReadDm (s : State) (k a : Nat) : Byte :=
  if s.run = .run ∨ s.par.dmBytes ≤ a then (Config.hostReadFree k a).extractLsb' 0 8 else s.byteAt a

/-! ### What the host does -/

/-- One action of the host, or an assertion of the reset input. -/
inductive HostAct where
  /-- Write a 32-bit value at a byte offset of the register window (R47). -/
  | writeCsr (off : Nat) (v : Word)
  /-- Write CM[i] (R48). -/
  | writeCm (i : Nat) (w : Word)
  /-- Write one byte of CM over a byte-addressed bus: byte 4*i is bits 7:0 of CM[i] (R77). -/
  | writeCmByte (a : Nat) (b : Byte)
  /-- Write DM[a] (R49). -/
  | writeDm (a : Nat) (b : Byte)
  /-- The reset input is asserted and released (R390). -/
  | resetLine
deriving DecidableEq, Repr

/-- START: IDLE and HALTED become RUN; otherwise ignored (R45). -/
def State.start (s : State) : State :=
  match s.run with
  | .idle | .halted => { s with run := .run }
  | .run | .fault => s

/-- A write of CTRL: SRST, CLR, IE, START in this order (R45). -/
def State.writeCtrl (s : State) (v : Word) : State :=
  let s1 := if v.getLsbD 3 then s.srst else s
  let s2 := if v.getLsbD 1 then s1.clearFault else s1
  let s3 := { s2 with ie := v.getLsbD 2 }
  if v.getLsbD 0 then s3.start else s3

/-- A write of WNAFW: bits 3:0 when they are a legal window, otherwise ignored (R43; log 18). -/
def State.writeWnafw (s : State) (v : Word) : State :=
  let w : BitVec 4 := v.extractLsb' 0 4
  if w.toNat = 0 ∨ s.par.wMax < w.toNat then s else { s with wnafw := w }

/-- A host write of a CSR by number while STATE is not RUN: FLAGS, WNAFW, PC and CTRL; a write of any other number is
ignored (R42 to R47). -/
def State.hostWriteCsr (s : State) (n : Nat) (v : Word) : State :=
  match n with
  | 6 => s.setFlags v.toNat
  | 7 => s.writeWnafw v
  | 8 => { s with pc := (v.extractLsb' 0 18).zeroExtend 19 }
  | 9 => s.writeCtrl v
  | _ => s

/-- `w` with byte `j` replaced, byte 0 the bits 7:0 (R77). -/
def setByte (w : Word) (j : Nat) (b : Byte) : Word :=
  let low := w.toNat % 2 ^ (8 * j)
  let high := w.toNat / 2 ^ (8 * j + 8) * 2 ^ (8 * j + 8)
  BitVec.ofNat 32 (high + b.toNat * 2 ^ (8 * j) + low)

/-- A write of CM[i], ignored outside CM (log 12). -/
def State.putWord (s : State) (i : Nat) (w : Word) : State :=
  if i < s.par.cmWords then { s with cm := Memory.store s.cm i w } else s

/-- A write of DM[a], ignored outside DM (log 12). -/
def State.putByte (s : State) (a : Nat) (b : Byte) : State :=
  if a < s.par.dmBytes then { s with dm := Memory.store s.dm a b } else s

/-- A host action while STATE is not RUN. -/
def State.hostIdle (s : State) : HostAct → State
  | .writeCsr off v => if off % 4 = 0 then s.hostWriteCsr (off / 4) v else s
  | .writeCm i w => s.putWord i w
  | .writeCmByte a b => s.putWord (a / 4) (setByte (s.wordAt (a / 4)) (a % 4) b)
  | .writeDm a b => s.putByte a b
  | .resetLine => s.srst

/-- A host action while STATE is RUN: only a write of CTRL with SRST = 1 and the reset input act; every other write is
ignored (R45, R87, R390). -/
def State.hostRun (s : State) : HostAct → State
  | .writeCsr off v => if off = 36 ∧ v.getLsbD 3 = true then s.writeCtrl v else s
  | .writeCm _ _ => s
  | .writeCmByte _ _ => s
  | .writeDm _ _ => s
  | .resetLine => s.srst

/-- What one action of the host does (R20, R87). -/
def hostAct (s : State) (a : HostAct) : State :=
  match s.run with
  | .run => s.hostRun a
  | .idle | .halted | .fault => s.hostIdle a

/-! ### Runs -/

/-- What happens next: a step of the engine or an action of the host (R20). -/
inductive Event where
  | engine
  | host (a : HostAct)
deriving DecidableEq, Repr

/-- The state after one event. The engine's step always answers a next state. -/
def State.after (s : State) : Event → State
  | .engine =>
    match step s with
    | .next s' => s'
    | .fault _ => s
    | .refused _ => s
  | .host a => hostAct s a

/-- The state after a sequence of events. -/
def State.afterAll (s : State) : List Event → State
  | [] => s
  | e :: rest => (s.after e).afterAll rest

end Sys2Proof.Machine
end

