-- ==== Sys2Proof/Machine/OpcodeMap.lean ====
section
/-! DEFINITION. The opcode map of 30_encoding.md R104 as a table: for each command its match and mask, so that the decoder can
be held against it. -/

namespace Sys2Proof

/-- One row of the opcode map: a word `w` is a well-formed instance of the command when `w & mask = pattern` (R104). -/
structure OpcodeRow where
  mnemonic : String
  /-- The column "match". -/
  pattern : Word
  /-- The column "mask". -/
  mask : Word
deriving DecidableEq, Repr

/-- The rows of the family of file 40 (R104). -/
def rowsControl : List OpcodeRow :=
  [ ⟨"NOP", 0x00000000#32, 0xFFFFFFFF#32⟩,
    ⟨"HALT", 0x01000000#32, 0xFFFFFFFF#32⟩,
    ⟨"JMP", 0x02000000#32, 0xFFFC0000#32⟩,
    ⟨"BS", 0x03000000#32, 0xFFF00000#32⟩,
    ⟨"BC", 0x04000000#32, 0xFFF00000#32⟩,
    ⟨"LI", 0x05000000#32, 0xFF000000#32⟩,
    ⟨"MOV", 0x06000000#32, 0xFF000FC0#32⟩,
    ⟨"LD", 0x07000000#32, 0xFF000000#32⟩,
    ⟨"ST", 0x08000000#32, 0xFF000000#32⟩,
    ⟨"MOVAL", 0x09000000#32, 0xFF03FFFF#32⟩,
    ⟨"MOVAH", 0x0A000000#32, 0xFF03FFFF#32⟩,
    ⟨"SETAL", 0x0B000000#32, 0xFFFC0FFF#32⟩,
    ⟨"SETAH", 0x0C000000#32, 0xFFFC0FFF#32⟩,
    ⟨"CSRR", 0x0D000000#32, 0xFF000000#32⟩,
    ⟨"CSRW", 0x0E000000#32, 0xFF000000#32⟩ ]

/-- The rows of the family of file 41 (R104). -/
def rowsInteger : List OpcodeRow :=
  [ ⟨"ADD", 0x10000000#32, 0xFF00003F#32⟩,
    ⟨"SUB", 0x11000000#32, 0xFF00003F#32⟩,
    ⟨"MUL", 0x12000000#32, 0xFFFC003F#32⟩,
    ⟨"SHL1", 0x13000000#32, 0xFF000FFF#32⟩,
    ⟨"SHR1", 0x14000000#32, 0xFF000FFF#32⟩,
    ⟨"SHL", 0x15000000#32, 0xFF00003F#32⟩,
    ⟨"SHR", 0x16000000#32, 0xFF00003F#32⟩,
    ⟨"CMP", 0x17000000#32, 0xFFFC003F#32⟩,
    ⟨"BITLEN", 0x18000000#32, 0xFF000FFF#32⟩,
    ⟨"BTST", 0x19000000#32, 0xFFFC003F#32⟩ ]

/-- The rows of the family of file 42 (R104). -/
def rowsModular : List OpcodeRow :=
  [ ⟨"CTXDEF", 0x20000000#32, 0xFFFC0FF8#32⟩,
    ⟨"REDC", 0x21000000#32, 0xFF03FFFC#32⟩,
    ⟨"BRED", 0x22000000#32, 0xFF03FFFC#32⟩,
    ⟨"MODADD", 0x23000000#32, 0xFF00003C#32⟩,
    ⟨"MODSUB", 0x24000000#32, 0xFF00003C#32⟩,
    ⟨"MODMUL", 0x25000000#32, 0xFF00003C#32⟩,
    ⟨"MODINV", 0x26000000#32, 0xFF000FFC#32⟩,
    ⟨"MODPOW", 0x27000000#32, 0xFF00003C#32⟩,
    ⟨"JACOBI", 0x28000000#32, 0xFF00003F#32⟩ ]

/-- The rows of the family of file 43 (R104). -/
def rowsPrimeField : List OpcodeRow :=
  [ ⟨"FZERO", 0x30000000#32, 0xFF03FFFC#32⟩,
    ⟨"FONE", 0x31000000#32, 0xFF03FFFC#32⟩,
    ⟨"FFROMI", 0x32000000#32, 0xFF000FFC#32⟩,
    ⟨"FTOI", 0x33000000#32, 0xFF000FFF#32⟩,
    ⟨"FADD", 0x34000000#32, 0xFF00003F#32⟩,
    ⟨"FSUB", 0x35000000#32, 0xFF00003F#32⟩,
    ⟨"FNEG", 0x36000000#32, 0xFF000FFF#32⟩,
    ⟨"FMUL", 0x37000000#32, 0xFF00003F#32⟩,
    ⟨"FSQR", 0x38000000#32, 0xFF000FFF#32⟩,
    ⟨"FINV", 0x39000000#32, 0xFF000FFF#32⟩,
    ⟨"FPOW", 0x3A000000#32, 0xFF00003F#32⟩,
    ⟨"FSQRT", 0x3B000000#32, 0xFF000FFF#32⟩,
    ⟨"FISZ", 0x3C000000#32, 0xFFFC0FFF#32⟩,
    ⟨"FEQ", 0x3D000000#32, 0xFFFC003F#32⟩,
    ⟨"FENC", 0x3E000000#32, 0xFF000FFF#32⟩,
    ⟨"FDEC", 0x3F000000#32, 0xFF000FFC#32⟩,
    ⟨"FBINV", 0x40000000#32, 0xFF000FC0#32⟩ ]

/-- The rows of the family of file 44 (R104). -/
def rowsExtension : List OpcodeRow :=
  [ ⟨"TWRDEF", 0x50000000#32, 0xFFE00020#32⟩,
    ⟨"EZERO", 0x51000000#32, 0xFF03FFF8#32⟩,
    ⟨"EONE", 0x52000000#32, 0xFF03FFF8#32⟩,
    ⟨"EADD", 0x53000000#32, 0xFF000038#32⟩,
    ⟨"ESUB", 0x54000000#32, 0xFF000038#32⟩,
    ⟨"ENEG", 0x55000000#32, 0xFF000FF8#32⟩,
    ⟨"EMUL", 0x56000000#32, 0xFF000038#32⟩,
    ⟨"ESQR", 0x57000000#32, 0xFF000FF8#32⟩,
    ⟨"EINV", 0x58000000#32, 0xFF000FF8#32⟩,
    ⟨"EPOW", 0x59000000#32, 0xFF000038#32⟩,
    ⟨"EISZ", 0x5A000000#32, 0xFFFC0FF8#32⟩,
    ⟨"EEQ", 0x5B000000#32, 0xFFFC0038#32⟩,
    ⟨"ECONJ", 0x5C000000#32, 0xFF000FF8#32⟩,
    ⟨"EFROB", 0x5D000000#32, 0xFF000038#32⟩,
    ⟨"EBINV", 0x5E000000#32, 0xFF000038#32⟩ ]

/-- The rows of the family of file 45 (R104). -/
def rowsCurve : List OpcodeRow :=
  [ ⟨"CRVDEF", 0x60000000#32, 0xFFF00000#32⟩,
    ⟨"PLIFT", 0x61000000#32, 0xFF000FFC#32⟩,
    ⟨"PDBL", 0x62000000#32, 0xFF000FFC#32⟩,
    ⟨"PADD", 0x63000000#32, 0xFF00003C#32⟩,
    ⟨"PMADD", 0x64000000#32, 0xFF00003C#32⟩,
    ⟨"PNEG", 0x65000000#32, 0xFF000FFC#32⟩,
    ⟨"PISINF", 0x66000000#32, 0xFFFC0FFC#32⟩,
    ⟨"PAFF", 0x67000000#32, 0xFF000FFC#32⟩,
    ⟨"PONC", 0x68000000#32, 0xFFFC0FFC#32⟩,
    ⟨"PEQ", 0x69000000#32, 0xFFFC003C#32⟩,
    ⟨"PSMUL", 0x6A000000#32, 0xFF00003C#32⟩,
    ⟨"PSMUL2", 0x6B000000#32, 0xFF00003C#32⟩,
    ⟨"PINF", 0x6C000000#32, 0xFF03FFFC#32⟩ ]

/-- The rows of the family of file 46 (R104). -/
def rowsWnaf : List OpcodeRow :=
  [ ⟨"WNAFENC", 0x70000000#32, 0xFF000030#32⟩,
    ⟨"WNAFDEC", 0x71000000#32, 0xFF00003F#32⟩ ]

/-- The rows of the family of file 47 (R104). -/
def rowsPairing : List OpcodeRow :=
  [ ⟨"PRGDEF", 0x80000000#32, 0xFF800038#32⟩,
    ⟨"PRECG1", 0x81000000#32, 0xFFF00FFF#32⟩,
    ⟨"PRECG2", 0x82000000#32, 0xFFF00FFF#32⟩,
    ⟨"MLOOP", 0x83000000#32, 0xFF030FFF#32⟩,
    ⟨"DMLOOP", 0x84000000#32, 0xFF030C3F#32⟩,
    ⟨"FEXP", 0x85000000#32, 0xFF000FFF#32⟩,
    ⟨"RPAIR", 0x86000000#32, 0xFF00003F#32⟩ ]

/-- The complete opcode map (R104). -/
def opcodeMap : List OpcodeRow :=
  rowsControl ++ rowsInteger ++ rowsModular ++ rowsPrimeField ++ rowsExtension ++ rowsCurve ++ rowsWnaf ++ rowsPairing

/-- The mnemonic of a command, as the opcode map spells it (R104). -/
def Instr.mnemonic : Instr → String
  | .nop => "NOP"
  | .halt => "HALT"
  | .jmp _ => "JMP"
  | .bs _ _ => "BS"
  | .bc _ _ => "BC"
  | .li _ _ => "LI"
  | .mov _ _ _ => "MOV"
  | .ld _ _ _ => "LD"
  | .st _ _ _ => "ST"
  | .moval _ => "MOVAL"
  | .movah _ => "MOVAH"
  | .setal _ => "SETAL"
  | .setah _ => "SETAH"
  | .csrr _ _ => "CSRR"
  | .csrw _ _ => "CSRW"
  | .add _ _ _ => "ADD"
  | .sub _ _ _ => "SUB"
  | .mul _ _ => "MUL"
  | .shl1 _ _ => "SHL1"
  | .shr1 _ _ => "SHR1"
  | .shl _ _ _ => "SHL"
  | .shr _ _ _ => "SHR"
  | .cmp _ _ => "CMP"
  | .bitlen _ _ => "BITLEN"
  | .btst _ _ => "BTST"
  | .ctxdef _ _ _ => "CTXDEF"
  | .redc _ _ => "REDC"
  | .bred _ _ => "BRED"
  | .modadd _ _ _ _ => "MODADD"
  | .modsub _ _ _ _ => "MODSUB"
  | .modmul _ _ _ _ => "MODMUL"
  | .modinv _ _ _ => "MODINV"
  | .modpow _ _ _ _ => "MODPOW"
  | .jacobi _ _ _ => "JACOBI"
  | .fzero _ _ => "FZERO"
  | .fone _ _ => "FONE"
  | .ffromi _ _ _ => "FFROMI"
  | .ftoi _ _ => "FTOI"
  | .fadd _ _ _ => "FADD"
  | .fsub _ _ _ => "FSUB"
  | .fneg _ _ => "FNEG"
  | .fmul _ _ _ => "FMUL"
  | .fsqr _ _ => "FSQR"
  | .finv _ _ => "FINV"
  | .fpow _ _ _ => "FPOW"
  | .fsqrt _ _ => "FSQRT"
  | .fisz _ => "FISZ"
  | .feq _ _ => "FEQ"
  | .fenc _ _ => "FENC"
  | .fdec _ _ _ => "FDEC"
  | .fbinv _ _ _ => "FBINV"
  | .twrdef _ _ _ _ _ => "TWRDEF"
  | .ezero _ _ => "EZERO"
  | .eone _ _ => "EONE"
  | .eadd _ _ _ _ => "EADD"
  | .esub _ _ _ _ => "ESUB"
  | .eneg _ _ _ => "ENEG"
  | .emul _ _ _ _ => "EMUL"
  | .esqr _ _ _ => "ESQR"
  | .einv _ _ _ => "EINV"
  | .epow _ _ _ _ => "EPOW"
  | .eisz _ _ => "EISZ"
  | .eeq _ _ _ => "EEQ"
  | .econj _ _ _ => "ECONJ"
  | .efrob _ _ _ _ => "EFROB"
  | .ebinv _ _ _ _ => "EBINV"
  | .crvdef _ _ _ _ _ => "CRVDEF"
  | .plift _ _ _ => "PLIFT"
  | .pdbl _ _ _ => "PDBL"
  | .padd _ _ _ _ => "PADD"
  | .pmadd _ _ _ _ => "PMADD"
  | .pneg _ _ _ => "PNEG"
  | .pisinf _ _ => "PISINF"
  | .paff _ _ _ => "PAFF"
  | .ponc _ _ => "PONC"
  | .peq _ _ _ => "PEQ"
  | .psmul _ _ _ _ => "PSMUL"
  | .psmul2 _ _ _ _ => "PSMUL2"
  | .pinf _ _ => "PINF"
  | .wnafenc _ _ _ _ => "WNAFENC"
  | .wnafdec _ _ _ => "WNAFDEC"
  | .prgdef _ _ _ _ _ _ => "PRGDEF"
  | .precg1 _ _ => "PRECG1"
  | .precg2 _ _ => "PRECG2"
  | .mloop _ _ _ => "MLOOP"
  | .dmloop _ _ _ _ _ => "DMLOOP"
  | .fexp _ _ => "FEXP"
  | .rpair _ _ _ => "RPAIR"

end Sys2Proof
end

