-- ==== Sys2Proof/Machine/Record.lean ====
section
/-! DEFINITION. The algorithms the spec writes down "for the record": REDC (R191), Barrett (R192), Tonelli-Shanks (R223)
and batch inversion (R229). No command calls them, since each result is defined by value; statements say that they
compute that value. -/

namespace Sys2Proof.Machine

/-- One step of the word-serial reduction: `q <- (t mod b) * n0inv mod b; t <- (t + q * m) / b` (R191). -/
def redcStep (w m n0inv t : Nat) : Nat := (t + t % 2 ^ w * n0inv % 2 ^ w * m) / 2 ^ w

/-- `n` steps of the word-serial reduction (R191). -/
def redcSteps (w m n0inv : Nat) : Nat → Nat → Nat
  | 0, t => t
  | n + 1, t => redcSteps w m n0inv n (redcStep w m n0inv t)

/-- The REDC algorithm: N steps and one conditional subtraction (R191). -/
def redcUnit (w n m n0inv acc : Nat) : Nat :=
  let t := redcSteps w m n0inv n acc
  if m ≤ t then t - m else t

/-- `while r >= m: r <- r - m`, at most `n` times (R192). -/
def barrettCorrect (m : Nat) : Nat → Nat → Nat
  | 0, r => r
  | n + 1, r => if m ≤ r then barrettCorrect m n (r - m) else r

/-- The Barrett algorithm with at most two corrections (R192). -/
def barrettUnit (w k m mu acc : Nat) : Nat :=
  let q := acc / 2 ^ (w * (k - 1)) * mu / 2 ^ (w * (k + 1))
  barrettCorrect m 2 (acc - q * m)

/-- `m - 1 = q * 2^s` with `q` odd, by at most `n` halvings (R223). -/
def splitPowerOfTwo : Nat → Nat → Nat → Nat × Nat
  | 0, q, s => (q, s)
  | n + 1, q, s => if q % 2 = 0 ∧ q ≠ 0 then splitPowerOfTwo n (q / 2) (s + 1) else (q, s)

/-- The least integer from `z` on, within `n` candidates, with `z^((m-1)/2) = m - 1` (R223). -/
def nonResidueFrom (m : Nat) : Nat → Nat → Nat
  | 0, z => z
  | n + 1, z => if modPow m z ((m - 1) / 2) = m - 1 then z else nonResidueFrom m n (z + 1)

/-- The least `i >= i0` with `t^(2^i) = 1`, where `t` is already `t^(2^i0)`, within `n` candidates (R223). -/
def orderExponent (m : Nat) : Nat → Nat → Nat → Nat
  | 0, _, i => i
  | n + 1, t, i => if t = 1 % m then i else orderExponent m n (t * t % m) (i + 1)

/-- The main loop of Tonelli-Shanks on `(M, c, t, r)`; `M` falls at every turn (R223). -/
def tonelliLoop (m : Nat) : Nat → Nat → Nat → Nat → Nat → Nat
  | 0, _, _, _, r => r
  | n + 1, mm, c, t, r =>
    if t = 1 % m then r
    else
      let i := orderExponent m mm (t * t % m) 1
      let b := modPow m c (2 ^ (mm - i - 1))
      tonelliLoop m n i (b * b % m) (t * (b * b % m) % m) (r * b % m)

/-- The square-root algorithm for an odd prime m (R223). -/
def tonelliRoot (m a : Nat) : Option Nat :=
  if a = 0 then some 0
  else if modPow m a ((m - 1) / 2) ≠ 1 then none
  else
    let r :=
      if m % 4 = 3 then modPow m a ((m + 1) / 4)
      else
        let (q, s) := splitPowerOfTwo (bitLength m) (m - 1) 0
        let z := nonResidueFrom m m 2
        tonelliLoop m s s (modPow m z q) (modPow m a q) (modPow m a ((q + 1) / 2))
    some (min r (m - r))

/-- The running products `p[i] = p[i-1] * a[i]` (R229). -/
def runningProducts (m : Nat) : Nat → List Nat → List Nat
  | _, [] => []
  | p, a :: rest => p * a % m :: runningProducts m (p * a % m) rest

/-- The backward sweep: sources and running products both last first; `out[i] <- u * p[i-1]; u <- u * a[i]` (R229). -/
def unwindProducts (m u : Nat) : List Nat → List Nat → List Nat
  | [], _ => []
  | [_], _ => [u]
  | a :: rest, _ :: p :: ps => unwindProducts m (u * a % m) rest (p :: ps) ++ [u * p % m]
  | _ :: _ :: _, _ => []

/-- The batch inversion algorithm: one inversion of the total product (R229). -/
def batchUnit (m : Nat) (as : List Nat) : Option (List Nat) :=
  let ps := runningProducts m 1 as
  match modInv m (ps.getLastD (1 % m)) with
  | none => none
  | some u => some (unwindProducts m u as.reverse ps.reverse)

end Sys2Proof.Machine
end

