-- ==== Sys2Proof/Safety.lean ====
section
/-! DEFINITION. What a sound state of the engine is, and the words in which claims say what a command changes. A state is
sound when every part of it satisfies the invariant its rule states: registers and accumulator within their widths (R21,
R26), tagged registers reduced (R25), table entries built as their definition command builds them (R31 to R35), memories
in canonical form and inside their bounds (R48, R49), PC at most 2^18 (R27), and a recorded fault exactly in FAULT (R39). -/

namespace Sys2Proof.Machine

/-! ### Sound parts -/

/-- The moduli a strategy admits (R180). -/
def strategyAdmits : Strategy → Nat → Bool
  | .mont, m => decide (m % 2 = 1) && decide (1 < m)
  | .barr, m => decide (0 < m)

/-- The strategy of a context entry (R31). -/
def Ctx.strat (e : Ctx) : Strategy := if e.isMont then .mont else .barr

/-- A context entry as CTXDEF writes it (R31, R180 to R182). -/
def Ctx.sound (par : Params) (e : Ctx) : Bool :=
  strategyAdmits e.strat e.m && decide (e.m < 2 ^ par.bits) && decide (e = makeCtx par e.strat e.m)

/-- A context: invalid, or as CTXDEF writes it. -/
def State.ctxEntrySound (s : State) (c : CtxIx) : Bool :=
  match s.ctxAt c with
  | none => true
  | some e => e.sound s.par

/-- A register within BITS bits (R21); when tagged FP(c), context c is valid and the value is below its modulus (R25). -/
def State.regSound (s : State) (r : Reg) : Bool :=
  decide (r.val < 2 ^ s.par.bits) &&
  match r.tag with
  | .raw => true
  | .fp c =>
    match s.ctxAt c with
    | none => false
    | some e => decide (r.val < e.m)

/-- An element of a tier: one coordinate per degree, each below p (R241). -/
def Fld.elemOk (f : Fld) (a : Elem) : Bool :=
  decide (a.length = f.degree) && a.all (fun v => decide (v < f.char))

/-- A tier with constants in range: p is not 0, beta and the Frobenius coefficients are elements of the base (R240). -/
def Fld.wf : Fld → Bool
  | .prime p => decide (0 < p)
  | .quad b beta g1 => b.wf && b.elemOk beta && b.elemOk g1
  | .cubic b beta g1 g2 => b.wf && b.elemOk beta && b.elemOk g1 && b.elemOk g2

/-- How many tower entries are valid. -/
def State.validTowers (s : State) : Nat := s.twr.toList.countP Option.isSome

/-- A tower entry as TWRDEF writes it: a valid base, its root and degree, constants of the base, and beta a non-residue
(R32, R242). -/
def State.towerSound (s : State) (e : Twr) : Bool :=
  match s.fieldOf e.base with
  | none => false
  | some f =>
    decide (e.root = f.root) && decide (e.k = degreeNat e.deg * f.k) && f.fld.elemOk e.beta &&
    decide (e.gamma.length = degreeNat e.deg - 1) && e.gamma.all (fun g => f.fld.elemOk g) &&
    isNonResidue f.fld e.deg e.beta

/-- A tower level: invalid, or sound with a chain of bases that ends in a prime field within as many levels as there are
valid entries (R32, R240). -/
def State.towerLevelSound (s : State) (t : TwrIx) : Bool :=
  match s.twrAt t with
  | none => true
  | some e => s.towerSound e && (s.resolve (s.validTowers + 1) (.tower t)).isSome

/-- A curve entry as CRVDEF writes it (R33, R270). -/
def State.curveSound (s : State) (e : Crv) : Bool :=
  match s.fieldOf e.fd with
  | none => false
  | some f =>
    f.fld.elemOk e.a && f.fld.elemOk e.b && decide (0 < e.r) && decide (e.r < 2 ^ s.par.bits) &&
    decide (e.sbits = bitLength e.r)

/-- A curve: invalid or sound. -/
def State.curveEntrySound (s : State) (i : CrvIx) : Bool :=
  match s.crvAt i with
  | none => true
  | some e => s.curveSound e

/-- The pairing configuration as PRGDEF writes it: invalid, or with its curves and tower valid and every condition of
R321 met (R34, R321). -/
def State.pairingSound (s : State) : Bool :=
  match s.prg with
  | none => true
  | some e =>
    match s.pairingOf with
    | none => false
    | some v =>
      pairingStructure s v.g1 v.g2 v.gt e.twr && decide (0 < e.loop) && decide (e.loop < 2 ^ s.par.bits) &&
      v.gt.fld.elemOk e.omega && decide ((v.gt.ctx.m ^ v.gt.k - 1) % v.g1.crv.r = 0) &&
      decide (e.e = (v.gt.ctx.m ^ v.gt.k - 1) / v.g1.crv.r) &&
      twistEqualities v.gt.fld v.g2.crv.twist v.g1.crv.a v.g1.crv.b v.g2.crv.a v.g2.crv.b e.omega

/-- The number of line triples of a G2 precomputation: one per bit of the loop count below the top one and one more per
one bit among these (R324). -/
def lineCount (loop : Nat) : Nat :=
  (bitLength loop - 1) + ((List.range (bitLength loop - 1)).filter (fun i => loop.testBit i)).length

/-- A precomputation slot: invalid, or made under a valid configuration; a G2 slot holds as many triples as the loop
count needs (R35, R324, R327, R328). -/
def State.slotSound (s : State) (n : SlotIx) : Bool :=
  match s.preAt n with
  | none => true
  | some (.g1 _ _) => s.prg.isSome
  | some (.g2 lines) =>
    match s.prg with
    | none => false
    | some e => decide (lines.length = lineCount e.loop)

/-- The fault registers: in FAULT a fault is recorded, in every other state all three are 0 (R39 to R41, R362). -/
def State.faultRegsSound (s : State) : Bool :=
  match s.run with
  | .fault => decide (s.err ≠ 0#8)
  | .idle | .run | .halted => decide (s.err = 0#8) && decide (s.epc = 0#19) && decide (s.einfo = 0#32)

/-- WNAFW is its reset value 4 or a legal window (R43). -/
def State.windowSound (s : State) : Bool :=
  decide (s.wnafw = 4#4) || (decide (1 ≤ s.wnafw.toNat) && decide (s.wnafw.toNat ≤ s.par.wMax))

/-- A memory in canonical form with every written address below its size (R48, R49; log 4). -/
def memorySound {α : Type} (size : Nat) (m : List (Nat × α)) : Bool :=
  Memory.wf m && m.all (fun e => decide (e.1 < size))

/-! ### Sound states -/

/-- Every part of the state is sound. -/
abbrev State.Inv (s : State) : Prop :=
  s.par.valid = true ∧
  (∀ r : RegIx, s.regSound (s.regAt r.toNat) = true) ∧
  s.acc < 2 ^ (2 * s.par.bits) ∧
  s.pc.toNat ≤ 2 ^ 18 ∧
  s.faultRegsSound = true ∧
  s.windowSound = true ∧
  (∀ c : CtxIx, s.ctxEntrySound c = true) ∧
  (∀ t : TwrIx, s.towerLevelSound t = true) ∧
  (∀ i : CrvIx, s.curveEntrySound i = true) ∧
  s.pairingSound = true ∧
  (∀ n : SlotIx, s.slotSound n = true) ∧
  memorySound s.par.cmWords s.cm = true ∧
  memorySound s.par.dmBytes s.dm = true

/-! ### What a command changes -/

/-- The commands that write the flag C (R29). -/
def writesC : Instr → Bool
  | .add _ _ _ | .sub _ _ _ | .shl1 _ _ | .shr1 _ _ | .shl _ _ _ | .shr _ _ _ => true
  | .csrw _ csr => csr == 6#18
  | _ => false

/-- The commands that write the flags Z and L (R29). -/
def writesZL : Instr → Bool
  | .cmp _ _ | .jacobi _ _ _ => true
  | .csrw _ csr => csr == 6#18
  | _ => false

/-- The commands that write the flag T (R29). -/
def writesT : Instr → Bool
  | .btst _ _ | .fsqrt _ _ | .fisz _ | .feq _ _ | .eisz _ _ | .eeq _ _ _ | .pisinf _ _ | .ponc _ _
  | .peq _ _ _ => true
  | .csrw _ csr => csr == 6#18
  | _ => false

/-- The degree of a tower level over its prime field, 0 when it is not valid. -/
def State.towerDegree (s : State) (t : TwrIx) : Nat :=
  match s.fieldOf (.tower t) with
  | none => 0
  | some f => f.k

/-- The degree of a curve's coordinate field, 0 when it is not valid. -/
def State.curveDegree (s : State) (i : CrvIx) : Nat :=
  match s.curveOf i with
  | none => 0
  | some v => v.fv.k

/-- The degree of GT, 0 when there is no pairing configuration. -/
def State.gtDegree (s : State) : Nat :=
  match s.pairingOf with
  | none => 0
  | some v => v.gt.k

/-- The destination registers of a command, as the first one and how many; none for a command without a register
destination (the operand rules of files 40 to 47). -/
def State.destination (s : State) : Instr → Nat × Nat
  | .li rd _ | .ld rd _ _ | .moval rd | .movah rd | .csrr rd _ | .add rd _ _ | .sub rd _ _ | .shl1 rd _ | .shr1 rd _
  | .shl rd _ _ | .shr rd _ _ | .bitlen rd _ | .redc rd _ | .bred rd _ | .modadd rd _ _ _ | .modsub rd _ _ _
  | .modmul rd _ _ _ | .modinv rd _ _ | .modpow rd _ _ _ | .jacobi rd _ _ | .fzero rd _ | .fone rd _ | .ffromi rd _ _
  | .ftoi rd _ | .fadd rd _ _ | .fsub rd _ _ | .fneg rd _ | .fmul rd _ _ | .fsqr rd _ | .finv rd _ | .fpow rd _ _
  | .fsqrt rd _ | .fdec rd _ _ | .wnafenc rd _ _ _ | .wnafdec rd _ _ => (rd.toNat, 1)
  | .mov rd _ cnt | .fbinv rd _ cnt => (rd.toNat, cnt.toNat + 1)
  | .ezero rd t | .eone rd t | .eadd rd _ _ t | .esub rd _ _ t | .eneg rd _ t | .emul rd _ _ t | .esqr rd _ t
  | .einv rd _ t | .epow rd _ _ t | .econj rd _ t | .efrob rd _ _ t => (rd.toNat, s.towerDegree t)
  | .ebinv rd _ cnt t => (rd.toNat, (cnt.toNat + 1) * s.towerDegree t)
  | .plift rd _ i | .pdbl rd _ i | .padd rd _ _ i | .pmadd rd _ _ i | .pneg rd _ i | .psmul rd _ _ i
  | .psmul2 rd _ _ i | .pinf rd i => (rd.toNat, 3 * s.curveDegree i)
  | .paff rd _ i => (rd.toNat, 2 * s.curveDegree i)
  | .mloop rd _ _ | .dmloop rd _ _ _ _ | .fexp rd _ | .rpair rd _ _ => (rd.toNat, s.gtDegree)
  | .nop | .halt | .jmp _ | .bs _ _ | .bc _ _ | .st _ _ _ | .setal _ | .setah _ | .csrw _ _ | .mul _ _ | .cmp _ _
  | .btst _ _ | .ctxdef _ _ _ | .fisz _ | .feq _ _ | .fenc _ _ | .twrdef _ _ _ _ _ | .eisz _ _ | .eeq _ _ _
  | .crvdef _ _ _ _ _ | .pisinf _ _ | .ponc _ _ | .peq _ _ _ | .prgdef _ _ _ _ _ _ | .precg1 _ _
  | .precg2 _ _ => (0, 0)

/-- The state after a command that changes nothing but PC. -/
def State.advanced (s : State) : State := { s with pc := s.pc + 1#19 }

/-- The state of fault entry with a kind and its information (R356). -/
def State.faulted (s : State) (k : FaultKind) (info : Word) : State :=
  { s with err := k.code, epc := s.pc, einfo := info, run := .fault }

/-- `t` is `s` after a command that changes nothing but the `count` registers from `first` on: every other register, the
flags, ACC, the CSRs, the tables, the slots and every byte of memory are as before, and PC is at the next command. -/
def OnlyRegisters (s t : State) (first count : Nat) : Prop :=
  t = { s with x := t.x, pc := s.pc + 1#19 } ∧
  (∀ n, (n < first ∨ first + count ≤ n) → t.regAt n = s.regAt n) ∧
  (∀ a, t.byteAt a = s.byteAt a) ∧ (∀ i, t.wordAt i = s.wordAt i)

/-- `t` is `s` after a command that changes nothing but the flag T. -/
def OnlyTruth (s t : State) (b : Bool) : Prop :=
  t = { s with t := b, pc := s.pc + 1#19 } ∧ (∀ a, t.byteAt a = s.byteAt a) ∧ (∀ i, t.wordAt i = s.wordAt i)

/-- `t` is `s` after a command that changes nothing but the `n` bytes of data memory from `addr` on, where byte `j` is
now `b j`. -/
def OnlyBytes (s t : State) (addr n : Nat) (b : Nat → Byte) : Prop :=
  t = { s with dm := t.dm, pc := s.pc + 1#19 } ∧
  (∀ j, j < n → t.byteAt (addr + j) = b j) ∧
  (∀ a, (a < addr ∨ addr + n ≤ a) → t.byteAt a = s.byteAt a) ∧ (∀ i, t.wordAt i = s.wordAt i)

/-- The one change of a command: register `rd` holds `v`, tagged RAW. -/
def RawResult (s t : State) (rd : RegIx) (v : Nat) : Prop :=
  OnlyRegisters s t rd.toNat 1 ∧ t.regAt rd.toNat = { val := v, tag := .raw }

/-- The one change of a command: register `rd` holds the element `a` of the prime field of context `c`. -/
def FieldResult (s t : State) (c : CtxIx) (e : Ctx) (rd : RegIx) (a : Nat) : Prop :=
  OnlyRegisters s t rd.toNat 1 ∧ t.tag rd = .fp c ∧ t.val rd < e.m ∧ e.logical s.par.bits (t.val rd) = a

/-- The one change of a command: the registers from `rd` on hold the element `a` of the tier. -/
def ElemResult (s t : State) (f : FieldView) (rd : Nat) (a : Elem) : Prop :=
  OnlyRegisters s t rd f.k ∧ t.tagged f rd f.k = true ∧ t.elemAt f rd = a

/-- The one change of a command: the registers from `rd` on hold the Jacobian point `p`. -/
def PointResult (s t : State) (f : FieldView) (rd : Nat) (p : JPoint) : Prop :=
  OnlyRegisters s t rd (3 * f.k) ∧ t.tagged f rd (3 * f.k) = true ∧ t.pointAt f rd = p

/-- The one change of a command: the registers from `rd` on hold the affine pair `p`. -/
def PairResult (s t : State) (f : FieldView) (rd : Nat) (p : Elem × Elem) : Prop :=
  OnlyRegisters s t rd (2 * f.k) ∧ t.tagged f rd (2 * f.k) = true ∧ t.pairAt f rd = p

/-- The one change of a command: the coordinate `j` of the registers from `rd` on is `c j`, for each of the `f.k`. -/
def CoordResult (s t : State) (f : FieldView) (rd : Nat) (c : Nat → Nat) : Prop :=
  OnlyRegisters s t rd f.k ∧ t.tagged f rd f.k = true ∧ ∀ j, j < f.k → t.coordAt f (rd + j) = c j

/-- The command faults: fault entry with kind `k` and its own word, and no other effect (R356, R357). -/
def Faults (i : Instr) (s : State) (k : FaultKind) : Prop := exec i s = .next (s.faulted k (encode i))

/-- The address and the length of the data access a command makes once its earlier checks pass, none for a command that
makes no access or stops before it (R72, R79, and the order of checks of R137, R138, R226, R227, R311, R312). -/
def State.dataAccess (s : State) : Instr → Option (Nat × Nat)
  | .ld _ rs1 imm | .st _ rs1 imm => some (s.val rs1 + imm.toNat, s.par.bits / 8)
  | .fenc rd rs1 =>
    match s.tag rd with
    | .raw => none
    | .fp c => (s.ctxAt c).map (fun e => (s.val rs1, ceilDiv e.mbits 8))
  | .fdec _ rs1 c => (s.ctxAt c).map (fun e => (s.val rs1, ceilDiv e.mbits 8))
  | .wnafenc _ rs1 rs2 w =>
    if w.toNat = 0 ∨ s.tag rs1 ≠ .raw then none else some (s.val rs2, 2 * (wnaf (s.val rs1) w.toNat).length)
  | .wnafdec _ rs1 rs2 =>
    if s.tag rs1 ≠ .raw ∨ s.par.bits + 1 < s.val rs1 then none else some (s.val rs2, 2 * s.val rs1)
  | .csrr _ _ | .csrw _ _ | .twrdef _ _ _ _ _ | .crvdef _ _ _ _ _
  | .nop | .halt | .jmp _ | .bs _ _ | .bc _ _ | .li _ _ | .mov _ _ _ | .moval _
  | .movah _ | .setal _ | .setah _ | .add _ _ _ | .sub _ _ _ | .mul _ _ | .shl1 _ _ | .shr1 _ _ | .shl _ _ _
  | .shr _ _ _ | .cmp _ _ | .bitlen _ _ | .btst _ _ | .ctxdef _ _ _ | .redc _ _ | .bred _ _ | .modadd _ _ _ _
  | .modsub _ _ _ _ | .modmul _ _ _ _ | .modinv _ _ _ | .modpow _ _ _ _ | .jacobi _ _ _ | .fzero _ _
  | .fone _ _ | .ffromi _ _ _ | .ftoi _ _ | .fadd _ _ _ | .fsub _ _ _ | .fneg _ _ | .fmul _ _ _ | .fsqr _ _
  | .finv _ _ | .fpow _ _ _ | .fsqrt _ _ | .fisz _ | .feq _ _ | .fbinv _ _ _
  | .ezero _ _ | .eone _ _ | .eadd _ _ _ _ | .esub _ _ _ _ | .eneg _ _ _ | .emul _ _ _ _ | .esqr _ _ _
  | .einv _ _ _ | .epow _ _ _ _ | .eisz _ _ | .eeq _ _ _ | .econj _ _ _ | .efrob _ _ _ _ | .ebinv _ _ _ _
  | .plift _ _ _ | .pdbl _ _ _ | .padd _ _ _ _ | .pmadd _ _ _ _ | .pneg _ _ _ | .pisinf _ _ | .paff _ _ _
  | .ponc _ _ | .peq _ _ _ | .psmul _ _ _ _ | .psmul2 _ _ _ _ | .pinf _ _
  | .prgdef _ _ _ _ _ _ | .precg1 _ _ | .precg2 _ _ | .mloop _ _ _ | .dmloop _ _ _ _ _ | .fexp _ _
  | .rpair _ _ _ => none

/-- An access of `n` bytes at `addr` lies inside data memory (R73). -/
abbrev State.InsideDm (s : State) (addr n : Nat) : Prop := addr < 2 ^ 32 ∧ addr + n ≤ s.par.dmBytes

/-! ### What the CSRs of more than one field read as -/

/-- The fields of CFG (R37). -/
def CfgFields (par : Params) (v : Nat) : Prop :=
  v % 2 ^ 8 = par.limbBits ∧ v / 2 ^ 8 % 2 ^ 8 = par.limbs ∧ v / 2 ^ 16 % 2 ^ 6 = 63 ∧ v / 2 ^ 22 % 2 ^ 2 = 3 ∧
  v / 2 ^ 24 % 2 ^ 3 = 7 ∧ v / 2 ^ 27 % 2 ^ 2 = 3 ∧ v / 2 ^ 29 % 2 ^ 2 = 3 ∧ v / 2 ^ 31 = 0

/-- The bits of FLAGS (R42). -/
def FlagsFields (s : State) (v : Nat) : Prop :=
  v.testBit 0 = s.c ∧ v.testBit 1 = s.z ∧ v.testBit 2 = s.l ∧ v.testBit 3 = s.t ∧ v < 16

/-- The bits of DEFV: one for each entry of each table, and no others (R46). -/
def DefvFields (s : State) (v : Nat) : Prop :=
  v < 2 ^ 21 ∧ (∀ c : CtxIx, v.testBit c.toNat = (s.ctxAt c).isSome) ∧
  (∀ n : TwrIx, v.testBit (4 + n.toNat) = (s.twrAt n).isSome) ∧
  (∀ n : CrvIx, v.testBit (12 + n.toNat) = (s.crvAt n).isSome) ∧ v.testBit 16 = s.prg.isSome ∧
  ∀ n : SlotIx, v.testBit (17 + n.toNat) = (s.preAt n).isSome

/-! ### The shared checks of the multi-register commands (R111, R358) -/

/-- Each operand, given by its first register and its size in elements of the field, ends at x[63] at the latest. -/
abbrev OperandsFit (f : FieldView) (regs : List (RegIx × Nat)) : Prop := ∀ q ∈ regs, q.1.toNat + q.2 * f.k ≤ 64

/-- Every register of each operand carries the tag of the field. -/
abbrev OperandsTagged (s : State) (f : FieldView) (srcs : List (RegIx × Nat)) : Prop :=
  ∀ q ∈ srcs, s.tagged f q.1.toNat (q.2 * f.k) = true

/-- The first three checks of a command over a field: the table entry (none: InvalidParameter), then the register ranges
(IllegalCommand), then the tags of the sources (IncompatibleContext). -/
def FieldChecks (s : State) (i : Instr) (field : Option FieldView) (regs srcs : List (RegIx × Nat)) : Prop :=
  (field = none → Faults i s .invalidParameter) ∧
  ∀ f, field = some f →
    (¬ OperandsFit f regs → Faults i s .illegalCommand) ∧
    (OperandsFit f regs → ¬ OperandsTagged s f srcs → Faults i s .incompatibleContext)

/-! ### Words of the tower, the curves and the lines -/

/-- A point with coordinates in the tier. -/
abbrev Fld.pointOk (f : Fld) (p : JPoint) : Prop := f.elemOk p.x = true ∧ f.elemOk p.y = true ∧ f.elemOk p.z = true

/-- The coefficients of every level are those that make EFROB the Frobenius map: d divides p - 1 and
`gamma_i = beta^(i*(p-1)/d)` in the base (R242, R259). -/
def Fld.frobeniusConstants : Fld → Prop
  | .prime _ => True
  | .quad b beta g1 => b.frobeniusConstants ∧ (b.char - 1) % 2 = 0 ∧ g1 = b.pow beta ((b.char - 1) / 2)
  | .cubic b beta g1 g2 =>
    b.frobeniusConstants ∧ (b.char - 1) % 3 = 0 ∧ g1 = b.pow beta ((b.char - 1) / 3) ∧
    g2 = b.pow beta (2 * ((b.char - 1) / 3))

/-- Some element of the tier has product 1 with `a` (R250). -/
def Fld.HasInverse (f : Fld) (a : Elem) : Prop := ∃ v, f.elemOk v = true ∧ f.mul a v = f.one

/-- `n * a`, a sum of n terms (R274). -/
def Fld.sumOf (f : Fld) (n : Nat) (a : Elem) : Elem := (fun v => f.add v a)^[n] f.zero

/-- The power `a^n`, a product of n factors (R190). -/
def Fld.prodOf (f : Fld) (n : Nat) (a : Elem) : Elem := (fun v => f.mul v a)^[n] f.one

/-- `r` is the double of `p` by the formula of R274, in canonical form. -/
def DoubleRule (f : Fld) (a : Elem) (p r : JPoint) : Prop :=
  let s := f.sumOf 4 (f.mul p.x (f.prodOf 2 p.y))
  let m := f.add (f.sumOf 3 (f.prodOf 2 p.x)) (f.mul a (f.prodOf 4 p.z))
  let x3 := f.sub (f.prodOf 2 m) (f.sumOf 2 s)
  let y3 := f.sub (f.mul m (f.sub s x3)) (f.sumOf 8 (f.prodOf 4 p.y))
  let z3 := f.sumOf 2 (f.mul p.y p.z)
  if p.z = f.zero ∨ p.y = f.zero ∨ z3 = f.zero then r = { x := f.zero, y := f.one, z := f.zero }
  else r = { x := x3, y := y3, z := z3 }

/-- `r` is the sum of `p` and `q` by the formula of R275, in canonical form. -/
def AddRule (f : Fld) (a : Elem) (p q r : JPoint) : Prop :=
  let u1 := f.mul p.x (f.prodOf 2 q.z)
  let u2 := f.mul q.x (f.prodOf 2 p.z)
  let s1 := f.mul p.y (f.prodOf 3 q.z)
  let s2 := f.mul q.y (f.prodOf 3 p.z)
  let h := f.sub u2 u1
  let d := f.sub s2 s1
  let v := f.mul u1 (f.prodOf 2 h)
  let x3 := f.sub (f.sub (f.prodOf 2 d) (f.prodOf 3 h)) (f.sumOf 2 v)
  let y3 := f.sub (f.mul d (f.sub v x3)) (f.mul s1 (f.prodOf 3 h))
  let z3 := f.mul (f.mul p.z q.z) h
  if p.z = f.zero then
    r = if q.z = f.zero then { x := f.zero, y := f.one, z := f.zero } else q
  else if q.z = f.zero then r = p
  else if u1 = u2 then
    (s1 = s2 → DoubleRule f a p r) ∧ (s1 ≠ s2 → r = { x := f.zero, y := f.one, z := f.zero })
  else r = if z3 = f.zero then { x := f.zero, y := f.one, z := f.zero } else { x := x3, y := y3, z := z3 }

/-- The line `c0*y + c1*x + c3 = 0`, multiplied through by Z^3, holds at a Jacobian point (R324). -/
def Line.passes (f : Fld) (l : Line) (p : JPoint) : Prop :=
  f.add (f.add (f.mul l.c0 p.y) (f.mul (f.mul l.c1 p.x) p.z)) (f.mul l.c3 (f.prodOf 3 p.z)) = f.zero

/-- `l` is the line of the doubling step at `t` and `u` the point it goes on with; no step is made where Z or Y is 0
(R324). -/
def TangentRule (f : Fld) (a : Elem) (t : JPoint) (l : Line) (u : JPoint) : Prop :=
  let m := f.add (f.sumOf 3 (f.prodOf 2 t.x)) (f.mul a (f.prodOf 4 t.z))
  t.z ≠ f.zero ∧ t.y ≠ f.zero ∧
  l.c0 = f.sumOf 2 (f.mul t.y (f.prodOf 3 t.z)) ∧
  l.c1 = f.neg (f.mul m (f.prodOf 2 t.z)) ∧
  l.c3 = f.sub (f.mul m t.x) (f.sumOf 2 (f.prodOf 2 t.y)) ∧
  DoubleRule f a t u

/-- `l` is the line of the addition step at `t` for the pair (x2, y2) and `u` the point it goes on with; no step is made
where Z or H is 0 (R324). -/
def ChordRule (f : Fld) (a x2 y2 : Elem) (t : JPoint) (l : Line) (u : JPoint) : Prop :=
  let h := f.sub (f.mul x2 (f.prodOf 2 t.z)) t.x
  let s := f.sub (f.mul y2 (f.prodOf 3 t.z)) t.y
  t.z ≠ f.zero ∧ h ≠ f.zero ∧
  l.c0 = f.mul t.z h ∧
  l.c1 = f.neg s ∧
  l.c3 = f.sub (f.mul s x2) (f.mul (f.mul y2 t.z) h) ∧
  AddRule f a t { x := x2, y := y2, z := f.one } u

/-- `lines` are the lines of R324 for the bits n-1 .. 0 of the loop count, from the point `t` on: for every bit a doubling
step, and after it for a one bit an addition step. -/
def LineChain (f : Fld) (a x2 y2 : Elem) (loop : Nat) : Nat → JPoint → List Line → Prop
  | 0, _, lines => lines = []
  | n + 1, t, lines => ∃ l u rest, TangentRule f a t l u ∧ lines = l :: rest ∧
    if loop.testBit n then
      ∃ l' u' rest', ChordRule f a x2 y2 u l' u' ∧ rest = l' :: rest' ∧ LineChain f a x2 y2 loop n u' rest'
    else LineChain f a x2 y2 loop n u rest

/-- The value of a line at the G1 pair (x, y), all five embedded in GT, `w` being omega (R325). The third case never occurs
in a configuration (R321, log 24). -/
def Line.valueAt (g : Fld) (ty : Twist) (w : Elem) (l : Line) (x y : Elem) : Elem :=
  let alongY := g.mul (g.embed l.c0) (g.embed y)
  let alongX := g.mul (g.embed l.c1) (g.embed x)
  let rest := g.embed l.c3
  match ty with
  | .typeD | .noTwist => g.add (g.add alongY (g.mul alongX w)) (g.mul rest (g.prodOf 3 w))
  | .typeM => g.add (g.add rest (g.mul alongX (g.prodOf 2 w))) (g.mul alongY (g.prodOf 3 w))

/-- Where in the list the doubling line of bit `i` stands: after one line for each higher bit below the top one and one
more for each one bit among these (R324, R326). -/
def lineIndex (loop i : Nat) : Nat :=
  let top := bitLength loop - 1
  (top - 1 - i) + ((List.range top).filter (fun j => decide (i < j) && loop.testBit j)).length

/-- `m` is the accumulator of R326 before its sign step: with `f i` the accumulator after bit `i`, it starts at 1, and each
bit squares it and multiplies in the doubling line of every pair in order, and for a one bit the addition line of every
pair in order. -/
def MillerAccumulates (g : Fld) (ty : Twist) (w : Elem) (loop : Nat) (pairs : List PairPre) (m : Elem) : Prop :=
  let top := bitLength loop - 1
  let withLines := fun (idx : Nat) (start : Elem) => pairs.foldl (fun acc p =>
    g.mul acc ((p.lines.getD idx { c0 := [], c1 := [], c3 := [] }).valueAt g ty w p.xP p.yP)) start
  ∃ f : Nat → Elem, f top = g.one ∧ f 0 = m ∧ ∀ i, i < top →
    let doubled := withLines (lineIndex loop i) (g.mul (f (i + 1)) (f (i + 1)))
    f i = if loop.testBit i then withLines (lineIndex loop i + 1) doubled else doubled

end Sys2Proof.Machine
end

