-- ==== Sys2Proof/Certificates/Slice0/Obligations.lean ====
section
/-! DEFINITION. The statements for the provers. They come from the numbered rules of spec/; the docstring of each names the
rules or the sections it rests on, and says so where a clause is the model's own choice. -/

open Sys2Proof Sys2Proof.Machine

/-! ### Encoding (30_encoding.md) -/

/-- R100 to R107: encoding and then decoding a command gives it back with every operand, and a word that decodes is the
encoding of what it decodes to, so each command has exactly one word. -/
def Obligations.DecodeAndEncodeAreInverse : Prop :=
  (∀ i : Instr, decode (encode i) = .ok i) ∧ ∀ (w : Word) (i : Instr), decode w = .ok i → encode i = w

/-- R104: the map has 88 rows; a word decodes exactly when it matches one of them, and then to a command with the mnemonic
of that row; no word matches two rows. -/
def Obligations.DecodeAcceptsExactlyTheOpcodeMap : Prop :=
  opcodeMap.length = 88 ∧
  ∀ w : Word,
    ((∃ i, decode w = .ok i) ↔ ∃ row ∈ opcodeMap, w &&& row.mask = row.pattern) ∧
    ∀ i, decode w = .ok i → ∀ row ∈ opcodeMap, w &&& row.mask = row.pattern → row.mnemonic = i.mnemonic

/-- Words written out in the examples of 40_control_move.md to 47_pairing.md, one or more for each family. -/
def Obligations.WorkedEncodings : Prop :=
  decode 0x02000020#32 = .ok (.jmp 32#18) ∧
  decode 0x0308000C#32 = .ok (.bs .l 12#18) ∧
  decode 0x06294002#32 = .ok (.mov 10#6 20#6 2#6) ∧
  decode 0x070C2010#32 = .ok (.ld 3#6 2#6 16#12) ∧
  decode 0x100C1080#32 = .ok (.add 3#6 1#6 2#6) ∧
  decode 0x20001000#32 = .ok (.ctxdef 0#2 1#6 .mont) ∧
  decode 0x220C0001#32 = .ok (.bred 3#6 1#2) ∧
  decode 0x371020C0#32 = .ok (.fmul 4#6 2#6 3#6) ∧
  decode 0x4050A002#32 = .ok (.fbinv 20#6 10#6 2#6) ∧
  decode 0x50082102#32 = .ok (.twrdef 2#3 2#6 4#6 .quadratic { tower := true, num := 0#3 }) ∧
  decode 0x5D50A040#32 = .ok (.efrob 20#6 10#6 1#6 0#3) ∧
  decode 0x600060C0#32 = .ok (.crvdef 0#2 6#6 3#6 0#2 { tower := false, num := 0#3 }) ∧
  decode 0x6BC8C140#32 = .ok (.psmul2 50#6 12#6 5#6 0#2) ∧
  decode 0x700C1083#32 = .ok (.wnafenc 3#6 1#6 2#6 3#4) ∧
  decode 0x8010A200#32 = .ok (.prgdef 0#2 1#2 false 10#6 8#6 0#3) ∧
  decode 0x84904100#32 = .ok (.dmloop 36#6 0#2 1#2 0#2 1#2)

/-! ### The engine as a whole (10_state.md, 40_control_move.md R145, 60_exceptions.md) -/

/-- R145, R30: in RUN, with PC inside CM, a step executes the command the word at PC decodes to; in IDLE, HALTED and FAULT
the engine does nothing. -/
def Obligations.StepRunsTheDecodedCommand : Prop :=
  ∀ s : State,
    (∀ i, s.run = .run → s.pc.toNat < s.par.cmWords → decode (s.wordAt s.pc.toNat) = .ok i → step s = exec i s) ∧
    (s.run ≠ .run → step s = .next s)

/-- R353: past the end of CM no word is fetched and AddressFault is raised with EPC = EINFO = PC; every other fault of a
step belongs to the word at PC. -/
def Obligations.FetchPastTheEndFaults : Prop :=
  ∀ s : State, s.run = .run →
    (s.par.cmWords ≤ s.pc.toNat →
      step s = .next { s with err := 8#8, epc := s.pc, einfo := BitVec.ofNat 32 s.pc.toNat, run := .fault }) ∧
    (s.pc.toNat < s.par.cmWords → ∀ t, step s = .next t → t.run = .fault →
      t = s.faulted .illegalCommand (s.wordAt s.pc.toNat) ∨
      ∃ i, decode (s.wordAt s.pc.toNat) = .ok i ∧ exec i s = .next t)

/-- R105, R106: a word that matches no row of the opcode map raises IllegalCommand with the word in EINFO, before any other
check; the unassigned opcodes do so whatever their other 24 bits are; the all-zero word is NOP. -/
def Obligations.WordsOutsideTheMapAreIllegal : Prop :=
  (∀ s : State, s.run = .run → s.pc.toNat < s.par.cmWords →
    (∀ row ∈ opcodeMap, s.wordAt s.pc.toNat &&& row.mask ≠ row.pattern) →
    step s = .next (s.faulted .illegalCommand (s.wordAt s.pc.toNat))) ∧
  (∀ w : Word,
    (let op := w.toNat / 2 ^ 24
     op = 0x0F ∨ (0x1A ≤ op ∧ op ≤ 0x1F) ∨ (0x29 ≤ op ∧ op ≤ 0x2F) ∨ (0x41 ≤ op ∧ op ≤ 0x4F) ∨ op = 0x5F ∨
     (0x6D ≤ op ∧ op ≤ 0x6F) ∨ (0x72 ≤ op ∧ op ≤ 0x7F) ∨ 0x87 ≤ op) →
    ∀ row ∈ opcodeMap, w &&& row.mask ≠ row.pattern) ∧
  decode 0x00000000#32 = .ok .nop

/-- R350, R356, R357, R362: every command answers a next state. Either it faults, and then ERR, EPC, EINFO and STATE are
the whole change, EINFO being the command word or the address of its data access; or it runs with the fault registers
unchanged, in the same run state, or halted by HALT. The codes are those of R350, and in FAULT nothing happens. -/
def Obligations.FaultsArePrecise : Prop :=
  (∀ (i : Instr) (s : State), ∃ t, exec i s = .next t ∧
    ((∃ k, t = s.faulted k (encode i)) ∨
     (∃ addr n, s.dataAccess i = some (addr, n) ∧ t = s.faulted .addressFault (BitVec.ofNat 32 addr)) ∨
     (t.err = s.err ∧ t.epc = s.epc ∧ t.einfo = s.einfo ∧ (t.run = s.run ∨ (i = .halt ∧ t.run = .halted))))) ∧
  (∀ (s : State) (k : FaultKind) (info : Word),
    step (s.faulted k info) = .next (s.faulted k info) ∧ (s.faulted k info).irq = s.ie ∧
    (s.faulted k info).pc = s.pc) ∧
  [FaultKind.divisionByZero, .outOfRange, .pointNotOnCurve, .invalidPairingInput, .incompatibleContext,
    .invalidParameter, .illegalCommand, .addressFault].map (fun k => k.code.toNat) = [1, 2, 3, 4, 5, 6, 7, 8]

/-- R52, R391: the values after a power-on reset, for any legal parameters, and that the state is sound. That the unwritten
memories read as the free values of Config is the model's form of "unspecified" (log 4); that `State.reset` takes the
default parameters is the model's choice (log 1). -/
def Obligations.ResetValuesAreSound : Prop :=
  (∀ par : Params, par.valid = true →
    let s := State.resetWith par
    (∀ r : RegIx, s.val r = 0 ∧ s.tag r = .raw) ∧ s.acc = 0 ∧ s.c = false ∧ s.z = false ∧ s.l = false ∧ s.t = false ∧
    s.pc = 0#19 ∧ s.run = .idle ∧ s.err = 0#8 ∧ s.epc = 0#19 ∧ s.einfo = 0#32 ∧ s.wnafw = 4#4 ∧ s.ie = false ∧
    (∀ c, s.ctxAt c = none) ∧ (∀ t, s.twrAt t = none) ∧ (∀ i, s.crvAt i = none) ∧ s.prg = none ∧
    (∀ n, s.preAt n = none) ∧ s.irq = false ∧
    (∀ i, s.wordAt i = Config.cmPowerOn i) ∧ (∀ a, s.byteAt a = Config.dmPowerOn a) ∧ s.Inv) ∧
  State.reset = State.resetWith Config.default ∧ Config.default.valid = true

/-- From every sound state (`State.Inv`: R21, R25 to R27, R31 to R35, R39, R43, R48, R49) a step answers a sound state, and
the parameters do not change (R10). -/
def Obligations.StepKeepsSoundness : Prop :=
  ∀ s t : State, s.Inv → step s = .next t → t.Inv ∧ t.par = s.par

/-- The same for every action of the host and for the reset input (R43 to R47, R77, R87, R390). -/
def Obligations.HostKeepsSoundness : Prop :=
  ∀ (s : State) (a : HostAct), s.Inv → (hostAct s a).Inv ∧ (hostAct s a).par = s.par

/-- R25: whatever host and engine do after a reset, whenever a register is tagged FP(c), context c is valid and the value is
below its modulus. R25 is itself derived in the spec, and this follows from StepKeepsSoundness and HostKeepsSoundness along
the events. -/
def Obligations.TaggedRegistersStayReduced : Prop :=
  ∀ par : Params, par.valid = true → ∀ events : List Event,
    let s := (State.resetWith par).afterAll events
    ∀ (r : RegIx) (c : CtxIx), s.tag r = .fp c → ∃ e, s.ctxAt c = some e ∧ s.val r < e.m

/-- R31 to R34, R390: a valid entry of a definition table stays as it is under every step and every action of the host but a
reset. -/
def Obligations.TableEntriesAreWrittenOnce : Prop :=
  ∀ (s : State) (e : Event), e ≠ .host .resetLine → (∀ v : Word, v.getLsbD 3 = true → e ≠ .host (.writeCsr 36 v)) →
    (∀ c x, s.ctxAt c = some x → (s.after e).ctxAt c = some x) ∧
    (∀ t x, s.twrAt t = some x → (s.after e).twrAt t = some x) ∧
    (∀ i x, s.crvAt i = some x → (s.after e).crvAt i = some x) ∧
    (∀ x, s.prg = some x → (s.after e).prg = some x)

/-! ### Frames -/

/-- R29: a command that is not a writer of a flag leaves it; a writer that completes gives it a value that does not depend
on what the flag held. -/
def Obligations.FlagWriters : Prop :=
  (∀ (i : Instr) (s t : State), exec i s = .next t →
    (writesC i = false → t.c = s.c) ∧ (writesZL i = false → t.z = s.z ∧ t.l = s.l) ∧
    (writesT i = false → t.t = s.t)) ∧
  (∀ (i : Instr) (s t u : State) (c z l b : Bool), exec i s = .next t → t.pc ≠ s.pc →
    exec i { s with c := c, z := z, l := l, t := b } = .next u →
    (writesC i = true → u.c = t.c) ∧ (writesZL i = true → u.z = t.z ∧ u.l = t.l) ∧ (writesT i = true → u.t = t.t))

/-- What every command leaves: every register outside its destination (R23, R136, R228, R241, R256, R272, R283), ACC but for
MUL, SETAL and SETAH (R26), WNAFW but for CSRW (R43), IE, the parameters and command memory always (R10, R45, R85), every
table entry but the one a definition command names, every slot but the one PRECG1 or PRECG2 names (R31 to R35), every byte
of data memory but those that ST, FENC and WNAFENC store to, at the address `State.targetBytes` computes, every flag but
those its list names (R29), and STATE, ERR, EPC and EINFO but for HALT and fault entry (R131, R356). PC goes to the next
command, or to the target of a jump or branch, or stays, for HALT and fault entry alone. -/
def Obligations.CommandFrame : Prop :=
  ∀ (i : Instr) (s t : State), exec i s = .next t →
    (∀ n, (n < (s.destination i).1 ∨ (s.destination i).1 + (s.destination i).2 ≤ n) → t.regAt n = s.regAt n) ∧
    (∀ a, a ∉ s.targetBytes i → t.byteAt a = s.byteAt a) ∧
    (t.acc = s.acc ∨ (∃ a b, i = .mul a b) ∨ (∃ a, i = .setal a) ∨ ∃ a, i = .setah a) ∧
    (t.wnafw = s.wnafw ∨ ∃ r, i = .csrw r 7#18) ∧
    t.ie = s.ie ∧ t.par = s.par ∧ t.cm = s.cm ∧ t.fresh = s.fresh ∧
    (∀ c, t.ctxAt c = s.ctxAt c ∨ ∃ r st, i = .ctxdef c r st) ∧
    (∀ n, t.twrAt n = s.twrAt n ∨ ∃ a b d f, i = .twrdef n a b d f) ∧
    (∀ n, t.crvAt n = s.crvAt n ∨ ∃ a b d f, i = .crvdef n a b d f) ∧
    (t.prg = s.prg ∨ ∃ a b c d e f, i = .prgdef a b c d e f) ∧
    (∀ n, t.preAt n = s.preAt n ∨ (∃ r, i = .precg1 n r) ∨ ∃ r, i = .precg2 n r) ∧
    (writesC i = false → t.c = s.c) ∧ (writesZL i = false → t.z = s.z ∧ t.l = s.l) ∧ (writesT i = false → t.t = s.t) ∧
    ((∃ k info, t = s.faulted k info) ∨
      (t.err = s.err ∧ t.epc = s.epc ∧ t.einfo = s.einfo ∧
        ((i = .halt ∧ t.run = .halted ∧ t.pc = s.pc) ∨
          (i ≠ .halt ∧ t.run = s.run ∧
            (t.pc = s.pc + 1#19 ∨
              ∃ target : Imm18, t.pc.toNat = target.toNat ∧
                (i = .jmp target ∨ (∃ f, i = .bs f target) ∨ ∃ f, i = .bc f target))))))

/-! ### Control, moves, memory and system commands (40_control_move.md) -/

/-- R27, R130 to R134: NOP, HALT, JMP, BS and BC change nothing but PC and, for HALT, STATE. -/
def Obligations.ControlTransferResults : Prop :=
  ∀ s : State,
    exec .nop s = .next s.advanced ∧
    exec .halt s = .next { s with run := .halted } ∧
    (∀ target : Imm18, ∃ t, exec (.jmp target) s = .next t ∧ t = { s with pc := t.pc } ∧ t.pc.toNat = target.toNat) ∧
    ∀ q ∈ [(Flag.c, s.c), (Flag.z, s.z), (Flag.l, s.l), (Flag.t, s.t)], ∀ target : Imm18,
      (∃ t, exec (.bs q.1 target) s = .next t ∧ t = { s with pc := t.pc } ∧
        (q.2 = true → t.pc.toNat = target.toNat) ∧ (q.2 = false → t.pc = s.pc + 1#19)) ∧
      (∃ t, exec (.bc q.1 target) s = .next t ∧ t = { s with pc := t.pc } ∧
        (q.2 = false → t.pc.toNat = target.toNat) ∧ (q.2 = true → t.pc = s.pc + 1#19))

/-- R135, R136, R139 to R142, R163: LI, MOV, MOVAL, MOVAH, SETAL, SETAH and MUL. MOV copies the old values with their tags,
also where the ranges overlap, and raises IllegalCommand where a range runs past x[63]. -/
def Obligations.MoveCommands : Prop :=
  ∀ s : State, s.Inv → ∀ rd rs1 rs2 : RegIx,
    (∀ imm : Imm18, ∃ t, exec (.li rd imm) s = .next t ∧ RawResult s t rd imm.toNat) ∧
    (∀ cnt : Field6,
      (rs1.toNat + (cnt.toNat + 1) ≤ 64 ∧ rd.toNat + (cnt.toNat + 1) ≤ 64 →
        ∃ t, exec (.mov rd rs1 cnt) s = .next t ∧ OnlyRegisters s t rd.toNat (cnt.toNat + 1) ∧
          ∀ j, j < cnt.toNat + 1 → t.regAt (rd.toNat + j) = s.regAt (rs1.toNat + j)) ∧
      (¬(rs1.toNat + (cnt.toNat + 1) ≤ 64 ∧ rd.toNat + (cnt.toNat + 1) ≤ 64) →
        Faults (.mov rd rs1 cnt) s .illegalCommand)) ∧
    (∃ t, exec (.moval rd) s = .next t ∧ RawResult s t rd (s.acc % 2 ^ s.par.bits)) ∧
    (∃ t, exec (.movah rd) s = .next t ∧ RawResult s t rd (s.acc / 2 ^ s.par.bits)) ∧
    (∃ t, exec (.setal rs1) s = .next t ∧ t = { s with acc := t.acc, pc := s.pc + 1#19 } ∧
      t.acc % 2 ^ s.par.bits = s.val rs1 ∧ t.acc / 2 ^ s.par.bits = s.acc / 2 ^ s.par.bits) ∧
    (∃ t, exec (.setah rs1) s = .next t ∧ t = { s with acc := t.acc, pc := s.pc + 1#19 } ∧
      t.acc / 2 ^ s.par.bits = s.val rs1 ∧ t.acc % 2 ^ s.par.bits = s.acc % 2 ^ s.par.bits) ∧
    exec (.mul rs1 rs2) s = .next { s with acc := s.val rs1 * s.val rs2, pc := s.pc + 1#19 } ∧
    s.val rs1 * s.val rs2 < 2 ^ (2 * s.par.bits)

/-- R72, R74, R78, R137, R138: ST writes BITS/8 bytes of the register, least significant first, at x[rs1] + imm12 and nothing
else; LD reads such an image into a RAW register. No address needs any alignment. -/
def Obligations.LoadsAndStores : Prop :=
  ∀ s : State, s.Inv → ∀ (rd rs1 : RegIx) (imm : Imm12),
    let addr := s.val rs1 + imm.toNat
    let n := s.par.bits / 8
    s.InsideDm addr n →
      (∃ t, exec (.st rd rs1 imm) s = .next t ∧
        OnlyBytes s t addr n (fun j => BitVec.ofNat 8 (s.val rd / 2 ^ (8 * j)))) ∧
      (∃ t v, exec (.ld rd rs1 imm) s = .next t ∧ RawResult s t rd v ∧ v < 2 ^ s.par.bits ∧
        ∀ j, j < n → v / 2 ^ (8 * j) % 256 = (s.byteAt (addr + j)).toNat)

/-- R73: of the six memory commands, in RUN: an access that does not lie inside DM raises AddressFault with the low 32 bits
of its address in EINFO and no other effect; an access inside DM, of whatever length, 0 included, raises none; nor does a
command that makes no access or stops at an earlier check. -/
def Obligations.DataAccessBounds : Prop :=
  ∀ (s : State) (i : Instr), s.run = .run →
    (∀ addr n, s.dataAccess i = some (addr, n) →
      (¬ s.InsideDm addr n → exec i s = .next (s.faulted .addressFault (BitVec.ofNat 32 addr))) ∧
      (s.InsideDm addr n → ∀ info, exec i s ≠ .next (s.faulted .addressFault info))) ∧
    (s.dataAccess i = none → ∀ info, exec i s ≠ .next (s.faulted .addressFault info))

/-- R36 to R47, R143: CSRR gives the value of each register a program can read, zero-extended and tagged RAW, and raises
IllegalCommand for CTRL and for the numbers from 11 on. -/
def Obligations.CsrReads : Prop :=
  ∀ s : State, s.Inv → s.run = .run → ∀ (rd : RegIx) (csr : Imm18),
    ((csr.toNat = 9 ∨ 11 ≤ csr.toNat) → Faults (.csrr rd csr) s .illegalCommand) ∧
    (csr.toNat ≠ 9 → csr.toNat < 11 → ∃ t v, exec (.csrr rd csr) s = .next t ∧ RawResult s t rd v ∧ v < 2 ^ 32 ∧
      (csr.toNat = 0 → v = 0x4D4D0007) ∧
      (csr.toNat = 1 → CfgFields s.par v) ∧
      (csr.toNat = 2 → v = 1) ∧
      (csr.toNat = 3 ∨ csr.toNat = 4 ∨ csr.toNat = 5 → v = 0) ∧
      (csr.toNat = 6 → FlagsFields s v) ∧
      (csr.toNat = 7 → v = s.wnafw.toNat) ∧
      (csr.toNat = 8 → v = s.pc.toNat) ∧
      (csr.toNat = 10 → DefvFields s v))

/-- R42, R43, R144: CSRW writes FLAGS or WNAFW; its faults in the order of R144. -/
def Obligations.CsrWrites : Prop :=
  ∀ s : State, s.Inv → ∀ (rd : RegIx) (csr : Imm18),
    let v := s.val rd
    let i := Instr.csrw rd csr
    (csr.toNat ≠ 6 → csr.toNat ≠ 7 → Faults i s .illegalCommand) ∧
    (csr.toNat = 6 ∨ csr.toNat = 7 → 2 ^ 32 ≤ v → Faults i s .outOfRange) ∧
    (csr.toNat = 6 → 16 ≤ v → v < 2 ^ 32 → Faults i s .invalidParameter) ∧
    (csr.toNat = 7 → v = 0 ∨ (s.par.wMax < v ∧ v < 2 ^ 32) → Faults i s .invalidParameter) ∧
    (csr.toNat = 6 → v < 16 → ∃ t, exec i s = .next t ∧
      t = { s with c := v.testBit 0, z := v.testBit 1, l := v.testBit 2, t := v.testBit 3, pc := s.pc + 1#19 }) ∧
    (csr.toNat = 7 → 1 ≤ v → v ≤ s.par.wMax → ∃ t, exec i s = .next t ∧
      t = { s with wnafw := t.wnafw, pc := s.pc + 1#19 } ∧ t.wnafw.toNat = v)

/-! ### Integer commands (41_integer.md) -/

/-- R161, R162, R168 to R170: ADD and SUB with C as carry and borrow, so that nothing is lost; CMP, BITLEN and BTST. -/
def Obligations.IntegerArithmetic : Prop :=
  ∀ s : State, s.Inv → ∀ rd rs1 rs2 : RegIx,
    let a := s.val rs1
    let b := s.val rs2
    (∃ t v c, exec (.add rd rs1 rs2) s = .next t ∧ RawResult { s with c := c } t rd v ∧ v < 2 ^ s.par.bits ∧
      v + 2 ^ s.par.bits * c.toNat = a + b) ∧
    (∃ t v c, exec (.sub rd rs1 rs2) s = .next t ∧ RawResult { s with c := c } t rd v ∧ v < 2 ^ s.par.bits ∧
      v + b = a + 2 ^ s.par.bits * c.toNat) ∧
    exec (.cmp rs1 rs2) s = .next { s with z := decide (a = b), l := decide (a < b), pc := s.pc + 1#19 } ∧
    (∃ t v, exec (.bitlen rd rs1) s = .next t ∧ RawResult s t rd v ∧ v ≤ s.par.bits ∧ a < 2 ^ v ∧
      (v ≠ 0 → 2 ^ (v - 1) ≤ a)) ∧
    (∃ t, exec (.btst rs1 rs2) s = .next t ∧ OnlyTruth s t (decide (b < s.par.bits) && a.testBit b))

/-- R164 to R167: the shifts by one and by the whole value of x[rs2], bit by bit; C is set exactly when a one bit is shifted
out, for every count. -/
def Obligations.Shifts : Prop :=
  ∀ s : State, s.Inv → ∀ rd rs1 rs2 : RegIx,
    let a := s.val rs1
    let n := s.val rs2
    let w := s.par.bits
    (∃ t v, exec (.shl1 rd rs1) s = .next t ∧ RawResult { s with c := a.testBit (w - 1) } t rd v ∧
      ∀ j, v.testBit j = (decide (j < w) && decide (1 ≤ j) && a.testBit (j - 1))) ∧
    (∃ t v, exec (.shr1 rd rs1) s = .next t ∧ RawResult { s with c := a.testBit 0 } t rd v ∧
      ∀ j, v.testBit j = a.testBit (j + 1)) ∧
    (∃ t v c, exec (.shl rd rs1 rs2) s = .next t ∧ RawResult { s with c := c } t rd v ∧
      (∀ j, v.testBit j = (decide (j < w) && decide (n ≤ j) && a.testBit (j - n))) ∧
      (c = true ↔ ∃ j, w ≤ j + n ∧ a.testBit j = true)) ∧
    (∃ t v c, exec (.shr rd rs1 rs2) s = .next t ∧ RawResult { s with c := c } t rd v ∧
      (∀ j, v.testBit j = a.testBit (j + n)) ∧ (c = true ↔ ∃ j, j < n ∧ a.testBit j = true))

/-! ### Modular commands (42_modular.md) -/

/-- R31, R180 to R182: CTXDEF makes the context valid with the modulus, its lengths and the constants of its strategy, each
given by the property the rules state of it; it refuses a valid entry and a modulus its strategy does not admit. -/
def Obligations.DefineContext : Prop :=
  ∀ s : State, s.Inv → ∀ (c : CtxIx) (rs1 : RegIx) (strat : Strategy),
    let m := s.val rs1
    let i := Instr.ctxdef c rs1 strat
    (s.ctxAt c ≠ none → Faults i s .invalidParameter) ∧
    (s.ctxAt c = none → (strat = .mont ∧ (m % 2 = 0 ∨ m ≤ 1)) ∨ (strat = .barr ∧ m = 0) →
      Faults i s .invalidParameter) ∧
    (s.ctxAt c = none → ¬((strat = .mont ∧ (m % 2 = 0 ∨ m ≤ 1)) ∨ (strat = .barr ∧ m = 0)) →
      ∃ t e, exec i s = .next t ∧ t = { s with ctx := t.ctx, pc := s.pc + 1#19 } ∧ t.ctxAt c = some e ∧
        (∀ d, d ≠ c → t.ctxAt d = s.ctxAt d) ∧ e.m = m ∧
        2 ^ (e.mbits - 1) ≤ m ∧ m < 2 ^ e.mbits ∧
        2 ^ (s.par.limbBits * (e.k - 1)) ≤ m ∧ m < 2 ^ (s.par.limbBits * e.k) ∧
        (strat = .mont → ∃ n0inv r2, e.red = .montgomery n0inv r2 ∧ n0inv < 2 ^ s.par.limbBits ∧
          n0inv * m % 2 ^ s.par.limbBits = 2 ^ s.par.limbBits - 1 ∧ r2 = 2 ^ (2 * s.par.bits) % m) ∧
        (strat = .barr → ∃ mu, e.red = .barrett mu ∧
          mu * m ≤ 2 ^ (2 * e.k * s.par.limbBits) ∧ 2 ^ (2 * e.k * s.par.limbBits) < (mu + 1) * m))

/-- R183, R184: REDC gives the v in [0, m) with v * 2^BITS congruent to ACC modulo m, BRED gives ACC mod m; their faults. -/
def Obligations.Reductions : Prop :=
  ∀ s : State, s.Inv → ∀ (rd : RegIx) (c : CtxIx),
    (s.ctxAt c = none → Faults (.redc rd c) s .invalidParameter ∧ Faults (.bred rd c) s .invalidParameter) ∧
    ∀ e, s.ctxAt c = some e →
      (e.strat = .barr → Faults (.redc rd c) s .invalidParameter) ∧
      (e.strat = .mont → Faults (.bred rd c) s .invalidParameter) ∧
      (e.strat = .mont → e.m * 2 ^ s.par.bits ≤ s.acc → Faults (.redc rd c) s .outOfRange) ∧
      (e.strat = .barr → 2 ^ (2 * e.k * s.par.limbBits) ≤ s.acc → Faults (.bred rd c) s .outOfRange) ∧
      (e.strat = .mont → s.acc < e.m * 2 ^ s.par.bits →
        ∃ t v, exec (.redc rd c) s = .next t ∧ RawResult s t rd v ∧ v < e.m ∧
          v * 2 ^ s.par.bits % e.m = s.acc % e.m) ∧
      (e.strat = .barr → s.acc < 2 ^ (2 * e.k * s.par.limbBits) →
        ∃ t, exec (.bred rd c) s = .next t ∧ RawResult s t rd (s.acc % e.m))

/-- R191: in the admitted range every division of the word-serial algorithm is exact, the value before the last line is
below 2m, and the result is `ACC * 2^(-BITS) mod m`, the value REDC gives. -/
def Obligations.WordSerialReduction : Prop :=
  ∀ (w n m n0inv acc : Nat), 1 ≤ w → m % 2 = 1 → 1 < m → m < 2 ^ (n * w) → n0inv < 2 ^ w →
    n0inv * m % 2 ^ w = 2 ^ w - 1 → acc < m * 2 ^ (n * w) →
    (∀ t, (t + t % 2 ^ w * n0inv % 2 ^ w * m) % 2 ^ w = 0) ∧
    redcSteps w m n0inv n acc < 2 * m ∧
    redcUnit w n m n0inv acc < m ∧ redcUnit w n m n0inv acc * 2 ^ (n * w) % m = acc % m ∧
    redcUnit w n m n0inv acc = montReduce (n * w) m acc

/-- R192: in the admitted range q is at most floor(x / m) and at most 2 below it, the remainder before the loop is below 3m,
and the result after at most two corrections is `ACC mod m`. The spec marks the bound on q as from general knowledge. -/
def Obligations.BarrettReduction : Prop :=
  ∀ (w k m acc : Nat), 1 ≤ w → 1 ≤ k → 2 ^ (w * (k - 1)) ≤ m → m < 2 ^ (w * k) → acc < 2 ^ (2 * k * w) →
    let mu := 2 ^ (2 * k * w) / m
    let q := acc / 2 ^ (w * (k - 1)) * mu / 2 ^ (w * (k + 1))
    q ≤ acc / m ∧ acc / m ≤ q + 2 ∧ acc - q * m < 3 * m ∧ barrettUnit w k m mu acc = acc % m

/-- R185 to R188, R190, R195: MODADD, MODSUB, MODMUL, MODPOW and MODINV over a context of either strategy, with their faults
in order. -/
def Obligations.ModularArithmetic : Prop :=
  ∀ s : State, s.Inv → ∀ (rd rs1 rs2 : RegIx) (c : CtxIx),
    let a := s.val rs1
    let b := s.val rs2
    (s.ctxAt c = none →
      ∀ i ∈ [Instr.modadd rd rs1 rs2 c, .modsub rd rs1 rs2 c, .modmul rd rs1 rs2 c, .modpow rd rs1 rs2 c,
        .modinv rd rs1 c], Faults i s .invalidParameter) ∧
    ∀ e, s.ctxAt c = some e →
      (e.m ≤ a ∨ e.m ≤ b →
        ∀ i ∈ [Instr.modadd rd rs1 rs2 c, .modsub rd rs1 rs2 c, .modmul rd rs1 rs2 c], Faults i s .outOfRange) ∧
      (e.m ≤ a → Faults (.modpow rd rs1 rs2 c) s .outOfRange ∧ Faults (.modinv rd rs1 c) s .outOfRange) ∧
      (a < e.m → b < e.m →
        (∃ t, exec (.modadd rd rs1 rs2 c) s = .next t ∧ RawResult s t rd ((a + b) % e.m)) ∧
        (∃ t v, exec (.modsub rd rs1 rs2 c) s = .next t ∧ RawResult s t rd v ∧ v < e.m ∧ (v + b) % e.m = a) ∧
        (∃ t, exec (.modmul rd rs1 rs2 c) s = .next t ∧ RawResult s t rd (a * b % e.m))) ∧
      (a < e.m → ∃ t, exec (.modpow rd rs1 rs2 c) s = .next t ∧ RawResult s t rd (a ^ b % e.m)) ∧
      (a < e.m → a = 0 ∨ Nat.gcd a e.m ≠ 1 → Faults (.modinv rd rs1 c) s .divisionByZero) ∧
      (a < e.m → a ≠ 0 → Nat.gcd a e.m = 1 →
        ∃ t v, exec (.modinv rd rs1 c) s = .next t ∧ RawResult s t rd v ∧ v < e.m ∧ v * a % e.m = 1)

/-- R189: JACOBI gives the Jacobi symbol (Mathlib's `jacobiSym`) of x[rs1] over an odd x[rs2] above 1 in the register, in Z
and in L, and refuses every other x[rs2]. -/
def Obligations.JacobiCommand : Prop :=
  ∀ s : State, s.Inv → ∀ rd rs1 rs2 : RegIx,
    let n := s.val rs2
    let j := jacobiSym (s.val rs1 : ℤ) n
    (n % 2 = 0 ∨ n ≤ 1 → Faults (.jacobi rd rs1 rs2) s .invalidParameter) ∧
    (n % 2 = 1 → 1 < n → ∃ t, exec (.jacobi rd rs1 rs2) s = .next t ∧
      RawResult { s with z := decide (j = 0), l := decide (j = -1) } t rd
        (if j = 1 then 1 else if j = 0 then 0 else 2 ^ s.par.bits - 1))

/-! ### Prime-field commands (43_prime_field.md) -/

/-- R24: `rep` and `val` are inverse bijections on [0, m); for a Montgomery context the stored form is the logical value
times 2^BITS modulo m, for a Barrett context it is the logical value. -/
def Obligations.RepresentationIsABijection : Prop :=
  ∀ (par : Params) (e : Ctx), par.valid = true → e.sound par = true →
    (∀ a, a < e.m →
      e.rep par.bits a < e.m ∧ e.logical par.bits (e.rep par.bits a) = a ∧
      (e.strat = .mont → e.rep par.bits a = a * 2 ^ par.bits % e.m) ∧ (e.strat = .barr → e.rep par.bits a = a)) ∧
    (∀ v, v < e.m →
      e.logical par.bits v < e.m ∧ e.rep par.bits (e.logical par.bits v) = v ∧
      (e.strat = .mont → e.logical par.bits v * 2 ^ par.bits % e.m = v) ∧
      (e.strat = .barr → e.logical par.bits v = v))

/-- R75, R211 to R214, R226, R227: how elements enter and leave. FZERO, FONE, FFROMI and FTOI; FENC writes the logical value
in ceil(mbits/8) bytes, most significant first; FDEC reads such bytes and refuses a value that is not below m; what FENC
wrote FDEC reads back. -/
def Obligations.ElementsEnterAndLeave : Prop :=
  ∀ s : State, s.Inv → ∀ (rd rs1 : RegIx) (c : CtxIx),
    (s.ctxAt c = none →
      ∀ i ∈ [Instr.fzero rd c, .fone rd c, .ffromi rd rs1 c, .fdec rd rs1 c], Faults i s .invalidParameter) ∧
    (s.tag rs1 = .raw → Faults (.ftoi rd rs1) s .incompatibleContext) ∧
    (s.tag rd = .raw → Faults (.fenc rd rs1) s .incompatibleContext) ∧
    ∀ e, s.ctxAt c = some e →
      let n := (e.mbits + 7) / 8
      let addr := s.val rs1
      (∃ t, exec (.fzero rd c) s = .next t ∧ FieldResult s t c e rd 0) ∧
      (∃ t, exec (.fone rd c) s = .next t ∧ FieldResult s t c e rd (1 % e.m)) ∧
      (e.m ≤ s.val rs1 → Faults (.ffromi rd rs1 c) s .outOfRange) ∧
      (s.val rs1 < e.m → ∃ t, exec (.ffromi rd rs1 c) s = .next t ∧ FieldResult s t c e rd (s.val rs1)) ∧
      (s.tag rs1 = .fp c → ∃ t, exec (.ftoi rd rs1) s = .next t ∧
        RawResult s t rd (e.logical s.par.bits (s.val rs1))) ∧
      (s.tag rd = .fp c → s.InsideDm addr n →
        ∃ t, exec (.fenc rd rs1) s = .next t ∧
          OnlyBytes s t addr n (fun j => BitVec.ofNat 8 (e.logical s.par.bits (s.val rd) / 2 ^ (8 * (n - 1 - j)))) ∧
          ∀ rd', ∃ u, exec (.fdec rd' rs1 c) t = .next u ∧
            FieldResult t u c e rd' (e.logical s.par.bits (s.val rd))) ∧
      (s.InsideDm addr n → ∀ a, a < 2 ^ (8 * n) →
        (∀ j, j < n → a / 2 ^ (8 * (n - 1 - j)) % 256 = (s.byteAt (addr + j)).toNat) →
          (e.m ≤ a → Faults (.fdec rd rs1 c) s .outOfRange) ∧
          (a < e.m → ∃ t, exec (.fdec rd rs1 c) s = .next t ∧ FieldResult s t c e rd a))

/-- R210, R215 to R219, R221: FADD, FSUB, FNEG, FMUL, FSQR and FPOW on logical values, in the field named by the tag of the
source, and the tag checks. -/
def Obligations.ElementArithmetic : Prop :=
  ∀ s : State, s.Inv → ∀ rd rs1 rs2 : RegIx,
    (s.tag rs1 = .raw →
      ∀ i ∈ [Instr.fadd rd rs1 rs2, .fsub rd rs1 rs2, .fneg rd rs1, .fmul rd rs1 rs2, .fsqr rd rs1, .fpow rd rs1 rs2],
        Faults i s .incompatibleContext) ∧
    ∀ c e, s.tag rs1 = .fp c → s.ctxAt c = some e →
      let a := e.logical s.par.bits (s.val rs1)
      let b := e.logical s.par.bits (s.val rs2)
      (s.tag rs2 ≠ .fp c →
        ∀ i ∈ [Instr.fadd rd rs1 rs2, .fsub rd rs1 rs2, .fmul rd rs1 rs2], Faults i s .incompatibleContext) ∧
      (s.tag rs2 ≠ .raw → Faults (.fpow rd rs1 rs2) s .incompatibleContext) ∧
      (∃ t v, exec (.fneg rd rs1) s = .next t ∧ FieldResult s t c e rd v ∧ (v + a) % e.m = 0) ∧
      (∃ t, exec (.fsqr rd rs1) s = .next t ∧ FieldResult s t c e rd (a * a % e.m)) ∧
      (s.tag rs2 = .raw →
        ∃ t, exec (.fpow rd rs1 rs2) s = .next t ∧ FieldResult s t c e rd (a ^ s.val rs2 % e.m)) ∧
      (s.tag rs2 = .fp c →
        (∃ t, exec (.fadd rd rs1 rs2) s = .next t ∧ FieldResult s t c e rd ((a + b) % e.m)) ∧
        (∃ t v, exec (.fsub rd rs1 rs2) s = .next t ∧ FieldResult s t c e rd v ∧ (v + b) % e.m = a) ∧
        (∃ t, exec (.fmul rd rs1 rs2) s = .next t ∧ FieldResult s t c e rd (a * b % e.m)))

/-- R220, R228: FINV and FBINV give the inverses, each the v in [0, m) with v * a mod m = 1; zero and a value without inverse
raise DivisionByZero, for the whole batch and with nothing written. -/
def Obligations.ElementInverses : Prop :=
  ∀ s : State, s.Inv → ∀ (rd rs1 : RegIx) (cnt : Field6),
    let n := cnt.toNat + 1
    (s.tag rs1 = .raw → Faults (.finv rd rs1) s .incompatibleContext) ∧
    (¬(rs1.toNat + n ≤ 64 ∧ rd.toNat + n ≤ 64) → Faults (.fbinv rd rs1 cnt) s .illegalCommand) ∧
    (rs1.toNat + n ≤ 64 ∧ rd.toNat + n ≤ 64 →
      s.tag rs1 = .raw ∨ (∃ j, j < n ∧ (s.regAt (rs1.toNat + j)).tag ≠ s.tag rs1) →
      Faults (.fbinv rd rs1 cnt) s .incompatibleContext) ∧
    ∀ c e, s.tag rs1 = .fp c → s.ctxAt c = some e →
      let a := fun j => e.logical s.par.bits (s.regAt (rs1.toNat + j)).val
      (a 0 = 0 ∨ Nat.gcd (a 0) e.m ≠ 1 → Faults (.finv rd rs1) s .divisionByZero) ∧
      (a 0 ≠ 0 → Nat.gcd (a 0) e.m = 1 →
        ∃ t v, exec (.finv rd rs1) s = .next t ∧ FieldResult s t c e rd v ∧ v * a 0 % e.m = 1) ∧
      (rs1.toNat + n ≤ 64 ∧ rd.toNat + n ≤ 64 → (∀ j, j < n → (s.regAt (rs1.toNat + j)).tag = .fp c) →
        ((∃ j, j < n ∧ (a j = 0 ∨ Nat.gcd (a j) e.m ≠ 1)) → Faults (.fbinv rd rs1 cnt) s .divisionByZero) ∧
        ((∀ j, j < n → a j ≠ 0 ∧ Nat.gcd (a j) e.m = 1) →
          ∃ t, exec (.fbinv rd rs1 cnt) s = .next t ∧ OnlyRegisters s t rd.toNat n ∧
            ∀ j, j < n → (t.regAt (rd.toNat + j)).tag = .fp c ∧ (t.regAt (rd.toNat + j)).val < e.m ∧
              e.logical s.par.bits (t.regAt (rd.toNat + j)).val * a j % e.m = 1))

/-- R229: one inversion of the running product gives, for every non-empty batch of values below m, what the separate
inversions of R228 give, or fails exactly when one of them does. -/
def Obligations.BatchInversion : Prop :=
  ∀ (m : Nat) (as : List Nat), 0 < m → as ≠ [] → (∀ a ∈ as, a < m) → batchUnit m as = invAll m as

/-- R222: FSQRT gives the least root and T = 1, or T = 0 with the destination and its tag unchanged. -/
def Obligations.SquareRootCommand : Prop :=
  ∀ s : State, s.Inv → ∀ rd rs1 : RegIx,
    (s.tag rs1 = .raw → Faults (.fsqrt rd rs1) s .incompatibleContext) ∧
    ∀ c e, s.tag rs1 = .fp c → s.ctxAt c = some e →
      let a := e.logical s.par.bits (s.val rs1)
      ((∀ r, r < e.m → r * r % e.m ≠ a) →
        exec (.fsqrt rd rs1) s = .next { s with t := false, pc := s.pc + 1#19 }) ∧
      (∀ r, r < e.m → r * r % e.m = a → (∀ u, u < r → u * u % e.m ≠ a) →
        ∃ t, exec (.fsqrt rd rs1) s = .next t ∧ FieldResult { s with t := true } t c e rd r)

/-- R223: for an odd prime the Tonelli-Shanks algorithm with its fast path gives the value of R222; for m = 2 every element
is its own root. -/
def Obligations.TonelliShanks : Prop :=
  (∀ m a : Nat, m.Prime → m ≠ 2 → a < m → tonelliRoot m a = leastRoot m a) ∧ ∀ a, a < 2 → leastRoot 2 a = some a

/-- R224, R225, R252, R253: FISZ, FEQ, EISZ and EEQ write T and nothing else; elements of different contexts are never
compared. -/
def Obligations.FieldPredicates : Prop :=
  ∀ s : State, s.Inv → ∀ (rs1 rs2 : RegIx) (lvl : TwrIx),
    (s.tag rs1 = .raw → Faults (.fisz rs1) s .incompatibleContext ∧ Faults (.feq rs1 rs2) s .incompatibleContext) ∧
    (∀ c e, s.tag rs1 = .fp c → s.ctxAt c = some e →
      (∃ t, exec (.fisz rs1) s = .next t ∧ OnlyTruth s t (decide (e.logical s.par.bits (s.val rs1) = 0))) ∧
      (s.tag rs2 ≠ .fp c → Faults (.feq rs1 rs2) s .incompatibleContext) ∧
      (s.tag rs2 = .fp c → ∃ t, exec (.feq rs1 rs2) s = .next t ∧
        OnlyTruth s t (decide (e.logical s.par.bits (s.val rs1) = e.logical s.par.bits (s.val rs2))))) ∧
    FieldChecks s (.eisz rs1 lvl) (s.fieldOf (.tower lvl)) [(rs1, 1)] [(rs1, 1)] ∧
    FieldChecks s (.eeq rs1 rs2 lvl) (s.fieldOf (.tower lvl)) [(rs1, 1), (rs2, 1)] [(rs1, 1), (rs2, 1)] ∧
    ∀ f, s.fieldOf (.tower lvl) = some f →
      (OperandsFit f [(rs1, 1)] → OperandsTagged s f [(rs1, 1)] →
        ∃ t, exec (.eisz rs1 lvl) s = .next t ∧
          OnlyTruth s t (decide (∀ j, j < f.k → s.coordAt f (rs1.toNat + j) = 0))) ∧
      (OperandsFit f [(rs1, 1), (rs2, 1)] → OperandsTagged s f [(rs1, 1), (rs2, 1)] →
        ∃ t, exec (.eeq rs1 rs2 lvl) s = .next t ∧
          OnlyTruth s t
            (decide (∀ j, j < f.k → s.coordAt f (rs1.toNat + j) = s.coordAt f (rs2.toNat + j))))

/-! ### Extension-field commands (44_extension_field.md) -/

/-- R32, R242: TWRDEF defines the level from its base, degree, beta and the coefficients as given; its faults in order, the
non-residue check among them. -/
def Obligations.DefineTower : Prop :=
  ∀ s : State, s.Inv → ∀ (lvl : TwrIx) (rs1 rs2 : RegIx) (deg : Degree) (base : FieldSel),
    let i := Instr.twrdef lvl rs1 rs2 deg base
    let d := degreeNat deg
    (base.legal = false → Faults i s .illegalCommand) ∧
    (base.legal = true → s.twrAt lvl ≠ none ∨ s.fieldOf (tierOf base) = none → Faults i s .invalidParameter) ∧
    ∀ f, base.legal = true → s.twrAt lvl = none → s.fieldOf (tierOf base) = some f →
      let beta := s.elemAt f rs1.toNat
      let q := f.ctx.m ^ f.k
      (¬ OperandsFit f [(rs1, 1), (rs2, d - 1)] → Faults i s .illegalCommand) ∧
      (OperandsFit f [(rs1, 1), (rs2, d - 1)] → ¬ OperandsTagged s f [(rs1, 1), (rs2, d - 1)] →
        Faults i s .incompatibleContext) ∧
      (OperandsFit f [(rs1, 1), (rs2, d - 1)] → OperandsTagged s f [(rs1, 1), (rs2, d - 1)] →
        (beta = f.fld.zero ∨ ¬ d ∣ q - 1 ∨ f.fld.pow beta ((q - 1) / d) = f.fld.one →
          Faults i s .invalidParameter) ∧
        (beta ≠ f.fld.zero → d ∣ q - 1 → f.fld.pow beta ((q - 1) / d) ≠ f.fld.one →
          ∃ t e, exec i s = .next t ∧ t = { s with twr := t.twr, pc := s.pc + 1#19 } ∧ t.twrAt lvl = some e ∧
            (∀ n, n ≠ lvl → t.twrAt n = s.twrAt n) ∧ e.base = tierOf base ∧ e.deg = deg ∧ e.beta = beta ∧
            e.gamma = (List.range (d - 1)).map (fun j => s.elemAt f (rs2.toNat + j * f.k)) ∧
            e.root = f.root ∧ e.k = d * f.k ∧
            ∃ g, t.fieldOf (.tower lvl) = some g ∧ g.root = f.root ∧ g.ctx = f.ctx ∧ g.k = d * f.k ∧
              (deg = .quadratic → g.fld = .quad f.fld beta (s.elemAt f rs2.toNat)) ∧
              (deg = .cubic → g.fld = .cubic f.fld beta (s.elemAt f rs2.toNat) (s.elemAt f (rs2.toNat + f.k)))))

/-- R240, R257: each tier is a commutative ring on the elements with coordinates below p, and the quotient of the ring of
polynomials over its base by `x^d - beta`: the base embeds as (v, 0, ..), the class X of x satisfies `X^d = beta`, and every
element is the sum of its coefficients times powers of X. -/
def Obligations.TiersAreQuotientRings : Prop :=
  ∀ f : Fld, f.wf = true →
    (f.elemOk f.zero = true ∧ f.elemOk f.one = true) ∧
    (∀ a b, f.elemOk a = true → f.elemOk b = true →
      f.elemOk (f.add a b) = true ∧ f.elemOk (f.sub a b) = true ∧ f.elemOk (f.neg a) = true ∧
      f.elemOk (f.mul a b) = true ∧ f.add a b = f.add b a ∧ f.mul a b = f.mul b a ∧ f.add a f.zero = a ∧
      f.mul a f.one = a ∧ f.add a (f.neg a) = f.zero ∧ f.add (f.sub a b) b = a) ∧
    (∀ a b c, f.elemOk a = true → f.elemOk b = true → f.elemOk c = true →
      f.add (f.add a b) c = f.add a (f.add b c) ∧ f.mul (f.mul a b) c = f.mul a (f.mul b c) ∧
      f.mul a (f.add b c) = f.add (f.mul a b) (f.mul a c)) ∧
    (∀ g beta g1, f = .quad g beta g1 →
      let x := g.zero ++ g.one
      f.mul x x = f.embed beta ∧
      (∀ u v, g.elemOk u = true → g.elemOk v = true →
        f.mul (f.embed u) (f.embed v) = f.embed (g.mul u v) ∧ f.add (f.embed u) (f.embed v) = f.embed (g.add u v) ∧
        u ++ v = f.add (f.embed u) (f.mul (f.embed v) x))) ∧
    (∀ g beta g1 g2, f = .cubic g beta g1 g2 →
      let x := g.zero ++ (g.one ++ g.zero)
      f.mul (f.mul x x) x = f.embed beta ∧
      (∀ u v w, g.elemOk u = true → g.elemOk v = true → g.elemOk w = true →
        f.mul (f.embed u) (f.embed v) = f.embed (g.mul u v) ∧ f.add (f.embed u) (f.embed v) = f.embed (g.add u v) ∧
        u ++ (v ++ w) = f.add (f.embed u) (f.add (f.mul (f.embed v) x) (f.mul (f.embed w) (f.mul x x)))))

/-- R241, R243 to R247, R254: EZERO, EONE, EADD, ESUB, ENEG and ECONJ coordinate by coordinate, and their faults in order; on
a cubic level ECONJ raises InvalidParameter before it looks at the register ranges. -/
def Obligations.TowerLinear : Prop :=
  ∀ s : State, s.Inv → ∀ (rd rs1 rs2 : RegIx) (lvl : TwrIx),
    let field := s.fieldOf (.tower lvl)
    FieldChecks s (.ezero rd lvl) field [(rd, 1)] [] ∧
    FieldChecks s (.eone rd lvl) field [(rd, 1)] [] ∧
    FieldChecks s (.eadd rd rs1 rs2 lvl) field [(rd, 1), (rs1, 1), (rs2, 1)] [(rs1, 1), (rs2, 1)] ∧
    FieldChecks s (.esub rd rs1 rs2 lvl) field [(rd, 1), (rs1, 1), (rs2, 1)] [(rs1, 1), (rs2, 1)] ∧
    FieldChecks s (.eneg rd rs1 lvl) field [(rd, 1), (rs1, 1)] [(rs1, 1)] ∧
    (field = none → Faults (.econj rd rs1 lvl) s .invalidParameter) ∧
    ∀ f, field = some f →
      let m := f.ctx.m
      let a := fun j => s.coordAt f (rs1.toNat + j)
      let b := fun j => s.coordAt f (rs2.toNat + j)
      (OperandsFit f [(rd, 1)] →
        (∃ t, exec (.ezero rd lvl) s = .next t ∧ CoordResult s t f rd.toNat (fun _ => 0)) ∧
        (∃ t, exec (.eone rd lvl) s = .next t ∧ CoordResult s t f rd.toNat (fun j => if j = 0 then 1 % m else 0))) ∧
      (OperandsFit f [(rd, 1), (rs1, 1), (rs2, 1)] → OperandsTagged s f [(rs1, 1), (rs2, 1)] →
        (∃ t, exec (.eadd rd rs1 rs2 lvl) s = .next t ∧ CoordResult s t f rd.toNat (fun j => (a j + b j) % m)) ∧
        (∃ t, exec (.esub rd rs1 rs2 lvl) s = .next t ∧
          CoordResult s t f rd.toNat (fun j => (a j + (m - b j)) % m))) ∧
      (OperandsFit f [(rd, 1), (rs1, 1)] → OperandsTagged s f [(rs1, 1)] →
        ∃ t, exec (.eneg rd rs1 lvl) s = .next t ∧ CoordResult s t f rd.toNat (fun j => (m - a j) % m)) ∧
      (∀ e, s.twrAt lvl = some e →
        (e.deg = .cubic → Faults (.econj rd rs1 lvl) s .invalidParameter) ∧
        (e.deg = .quadratic →
          (¬ OperandsFit f [(rd, 1), (rs1, 1)] → Faults (.econj rd rs1 lvl) s .illegalCommand) ∧
          (OperandsFit f [(rd, 1), (rs1, 1)] → ¬ OperandsTagged s f [(rs1, 1)] →
            Faults (.econj rd rs1 lvl) s .incompatibleContext) ∧
          (OperandsFit f [(rd, 1), (rs1, 1)] → OperandsTagged s f [(rs1, 1)] →
            ∃ t, exec (.econj rd rs1 lvl) s = .next t ∧
              CoordResult s t f rd.toNat (fun j => if 2 * j < f.k then a j else (m - a j) % m))))

/-- R248, R249, R251, R255, R257, R259: EMUL, ESQR, EPOW and EFROB in the ring of the tier, and their faults in order; the
square is the product with itself, the power the repeated product, EFROB the repeated Frobenius formula; this formula maps
each coefficient in the base and multiplies coefficient i by the gamma_i that the tower entry holds, whatever it is, and is
the identity on a prime field; and the Karatsuba form that R257 says the unit uses gives the same product. -/
def Obligations.TowerMultiplicative : Prop :=
  (∀ s : State, s.Inv → ∀ (rd rs1 rs2 : RegIx) (j : Field6) (lvl : TwrIx),
    let field := s.fieldOf (.tower lvl)
    FieldChecks s (.emul rd rs1 rs2 lvl) field [(rd, 1), (rs1, 1), (rs2, 1)] [(rs1, 1), (rs2, 1)] ∧
    FieldChecks s (.esqr rd rs1 lvl) field [(rd, 1), (rs1, 1)] [(rs1, 1)] ∧
    FieldChecks s (.epow rd rs1 rs2 lvl) field [(rd, 1), (rs1, 1)] [(rs1, 1)] ∧
    FieldChecks s (.efrob rd rs1 j lvl) field [(rd, 1), (rs1, 1)] [(rs1, 1)] ∧
    ∀ f, field = some f → OperandsFit f [(rd, 1), (rs1, 1)] → OperandsTagged s f [(rs1, 1)] →
      let a := s.elemAt f rs1.toNat
      (∃ t, exec (.esqr rd rs1 lvl) s = .next t ∧ ElemResult s t f rd.toNat (f.fld.mul a a)) ∧
      (∃ t, exec (.efrob rd rs1 j lvl) s = .next t ∧ ElemResult s t f rd.toNat (f.fld.frob^[j.toNat] a)) ∧
      (s.tag rs2 ≠ .raw → Faults (.epow rd rs1 rs2 lvl) s .incompatibleContext) ∧
      (s.tag rs2 = .raw → ∃ t, exec (.epow rd rs1 rs2 lvl) s = .next t ∧
        ElemResult s t f rd.toNat (f.fld.prodOf (s.val rs2) a)) ∧
      (OperandsFit f [(rs2, 1)] → OperandsTagged s f [(rs2, 1)] →
        ∃ t, exec (.emul rd rs1 rs2 lvl) s = .next t ∧
          ElemResult s t f rd.toNat (f.fld.mul a (s.elemAt f rs2.toNat)))) ∧
  (∀ s : State, s.Inv → ∀ (lvl : TwrIx) (e : Twr) (f : FieldView), s.twrAt lvl = some e →
    s.fieldOf (.tower lvl) = some f → ∃ b, s.fieldOf e.base = some b ∧ ∀ a, f.fld.elemOk a = true →
      f.fld.elemOk (f.fld.frob a) = true ∧
      coeff b.k 0 (f.fld.frob a) = b.fld.frob (coeff b.k 0 a) ∧
      ∀ i, i + 1 < degreeNat e.deg →
        coeff b.k (i + 1) (f.fld.frob a) = b.fld.mul (b.fld.frob (coeff b.k (i + 1) a)) (e.gamma.getD i [])) ∧
  (∀ (s : State) (c : CtxIx) (b : FieldView), s.fieldOf (.prime c) = some b → ∀ a, b.fld.frob a = a) ∧
  (∀ (g : Fld) (beta g1 a0 a1 b0 b1 : Elem), (Fld.quad g beta g1).wf = true → g.elemOk a0 = true →
    g.elemOk a1 = true → g.elemOk b0 = true → g.elemOk b1 = true →
    let v0 := g.mul a0 b0
    let v1 := g.mul a1 b1
    (Fld.quad g beta g1).mul (a0 ++ a1) (b0 ++ b1) =
      g.add v0 (g.mul beta v1) ++ g.sub (g.sub (g.mul (g.add a0 a1) (g.add b0 b1)) v0) v1)

/-- R250, R256, R258: over any modulus EINV and EBINV complete exactly on the elements that have an inverse, with the element
whose product with the source is 1, and raise DivisionByZero on zero and on every other element, for the whole batch; over a
prime modulus every non-zero element of a verified tower has an inverse. -/
def Obligations.TowerInverse : Prop :=
  ∀ s : State, s.Inv → ∀ (rd rs1 : RegIx) (cnt : Field6) (lvl : TwrIx),
    let field := s.fieldOf (.tower lvl)
    let n := cnt.toNat + 1
    FieldChecks s (.einv rd rs1 lvl) field [(rd, 1), (rs1, 1)] [(rs1, 1)] ∧
    FieldChecks s (.ebinv rd rs1 cnt lvl) field [(rs1, n), (rd, n)] [(rs1, n)] ∧
    ∀ f, field = some f →
      let a := fun j => s.elemAt f (rs1.toNat + j * f.k)
      (OperandsFit f [(rd, 1), (rs1, 1)] → OperandsTagged s f [(rs1, 1)] →
        (a 0 = f.fld.zero → Faults (.einv rd rs1 lvl) s .divisionByZero) ∧
        (¬ f.fld.HasInverse (a 0) → Faults (.einv rd rs1 lvl) s .divisionByZero) ∧
        (f.fld.HasInverse (a 0) →
          ∃ t v, exec (.einv rd rs1 lvl) s = .next t ∧ ElemResult s t f rd.toNat v ∧
            f.fld.mul (a 0) v = f.fld.one)) ∧
      (f.ctx.m.Prime → ∀ u, f.fld.elemOk u = true → u ≠ f.fld.zero → f.fld.HasInverse u) ∧
      (OperandsFit f [(rs1, n), (rd, n)] → OperandsTagged s f [(rs1, n)] →
        ((∃ j, j < n ∧ (a j = f.fld.zero ∨ ¬ f.fld.HasInverse (a j))) →
          Faults (.ebinv rd rs1 cnt lvl) s .divisionByZero) ∧
        ((∀ j, j < n → f.fld.HasInverse (a j)) →
          ∃ t, exec (.ebinv rd rs1 cnt lvl) s = .next t ∧ OnlyRegisters s t rd.toNat (n * f.k) ∧
            t.tagged f rd.toNat (n * f.k) = true ∧
            ∀ j, j < n → f.fld.mul (a j) (t.elemAt f (rd.toNat + j * f.k)) = f.fld.one))

/-- R259: over a prime p, when the coefficients of every level are `beta^(i*(p-1)/d)`, the Frobenius formula is the p-th
power. -/
def Obligations.FrobeniusIsThePthPower : Prop :=
  ∀ f : Fld, f.wf = true → f.char.Prime → f.frobeniusConstants → ∀ a, f.elemOk a = true →
    f.frob a = f.prodOf f.char a

/-! ### Curve commands (45_curve.md) -/

/-- R33, R270: CRVDEF defines the curve from its field, coefficients, twist code and group order; its faults in order. -/
def Obligations.DefineCurve : Prop :=
  ∀ s : State, s.Inv → ∀ (ix : CrvIx) (rs1 rs2 : RegIx) (twist : BitVec 2) (fd : FieldSel),
    let i := Instr.crvdef ix rs1 rs2 twist fd
    (twist = 3#2 ∨ fd.legal = false → Faults i s .illegalCommand) ∧
    (twist ≠ 3#2 → fd.legal = true → s.crvAt ix ≠ none ∨ s.fieldOf (tierOf fd) = none →
      Faults i s .invalidParameter) ∧
    ∀ f, twist ≠ 3#2 → fd.legal = true → s.crvAt ix = none → s.fieldOf (tierOf fd) = some f →
      (¬ OperandsFit f [(rs1, 2)] → Faults i s .illegalCommand) ∧
      (OperandsFit f [(rs1, 2)] → ¬ OperandsTagged s f [(rs1, 2)] ∨ s.tag rs2 ≠ .raw →
        Faults i s .incompatibleContext) ∧
      (OperandsFit f [(rs1, 2)] → OperandsTagged s f [(rs1, 2)] → s.tag rs2 = .raw →
        (s.val rs2 = 0 → Faults i s .invalidParameter) ∧
        (s.val rs2 ≠ 0 → ∃ t e, exec i s = .next t ∧ t = { s with crv := t.crv, pc := s.pc + 1#19 } ∧
          t.crvAt ix = some e ∧ (∀ n, n ≠ ix → t.crvAt n = s.crvAt n) ∧ e.fd = tierOf fd ∧
          e.a = s.elemAt f rs1.toNat ∧ e.b = s.elemAt f (rs1.toNat + f.k) ∧ e.r = s.val rs2 ∧
          (twist = 0#2 → e.twist = .noTwist) ∧ (twist = 1#2 → e.twist = .typeD) ∧ (twist = 2#2 → e.twist = .typeM) ∧
          2 ^ (e.sbits - 1) ≤ e.r ∧ e.r < 2 ^ e.sbits))

/-- R272, R273, R276, R277, R281, R283: PINF, PLIFT with its curve test, PNEG in canonical form, and PAFF, which gives the
pair with `x * Z^2 = X` and `y * Z^3 = Y` and refuses Z = 0 and a Z without inverse, which over a prime modulus is Z = 0
alone; their faults in order. -/
def Obligations.CurvePoints : Prop :=
  ∀ s : State, s.Inv → ∀ (rd rs1 : RegIx) (ix : CrvIx),
    let field := (s.curveOf ix).map (·.fv)
    FieldChecks s (.pinf rd ix) field [(rd, 3)] [] ∧
    FieldChecks s (.plift rd rs1 ix) field [(rd, 3), (rs1, 2)] [(rs1, 2)] ∧
    FieldChecks s (.pneg rd rs1 ix) field [(rd, 3), (rs1, 3)] [(rs1, 3)] ∧
    FieldChecks s (.paff rd rs1 ix) field [(rd, 2), (rs1, 3)] [(rs1, 3)] ∧
    ∀ v, s.curveOf ix = some v →
      let f := v.fv
      let g := f.fld
      let o : JPoint := { x := g.zero, y := g.one, z := g.zero }
      (OperandsFit f [(rd, 3)] → ∃ t, exec (.pinf rd ix) s = .next t ∧ PointResult s t f rd.toNat o) ∧
      (OperandsFit f [(rd, 3), (rs1, 2)] → OperandsTagged s f [(rs1, 2)] →
        let x := s.elemAt f rs1.toNat
        let y := s.elemAt f (rs1.toNat + f.k)
        (g.prodOf 2 y ≠ g.add (g.add (g.prodOf 3 x) (g.mul v.crv.a x)) v.crv.b →
          Faults (.plift rd rs1 ix) s .pointNotOnCurve) ∧
        (g.prodOf 2 y = g.add (g.add (g.prodOf 3 x) (g.mul v.crv.a x)) v.crv.b →
          ∃ t, exec (.plift rd rs1 ix) s = .next t ∧ PointResult s t f rd.toNat { x := x, y := y, z := g.one })) ∧
      (OperandsFit f [(rd, 3), (rs1, 3)] → OperandsTagged s f [(rs1, 3)] →
        let p := s.pointAt f rs1.toNat
        ∃ t, exec (.pneg rd rs1 ix) s = .next t ∧
          PointResult s t f rd.toNat (if p.z = g.zero then o else { x := p.x, y := g.sub g.zero p.y, z := p.z })) ∧
      (OperandsFit f [(rd, 2), (rs1, 3)] → OperandsTagged s f [(rs1, 3)] →
        let p := s.pointAt f rs1.toNat
        (p.z = g.zero ∨ ¬ g.HasInverse p.z → Faults (.paff rd rs1 ix) s .divisionByZero) ∧
        (p.z ≠ g.zero → f.ctx.m.Prime ∨ g.HasInverse p.z → ∃ t x y, exec (.paff rd rs1 ix) s = .next t ∧
          PairResult s t f rd.toNat (x, y) ∧ g.mul x (g.prodOf 2 p.z) = p.x ∧ g.mul y (g.prodOf 3 p.z) = p.y))

/-- R271, R274, R275, R278 to R280: PDBL, PADD and PMADD complete on whatever coordinates they are given with the point of
the doubling and the addition formula in canonical form; their faults in order. -/
def Obligations.GroupLaw : Prop :=
  ∀ s : State, s.Inv → ∀ (rd rs1 rs2 : RegIx) (ix : CrvIx),
    let field := (s.curveOf ix).map (·.fv)
    FieldChecks s (.pdbl rd rs1 ix) field [(rd, 3), (rs1, 3)] [(rs1, 3)] ∧
    FieldChecks s (.padd rd rs1 rs2 ix) field [(rd, 3), (rs1, 3), (rs2, 3)] [(rs1, 3), (rs2, 3)] ∧
    FieldChecks s (.pmadd rd rs1 rs2 ix) field [(rd, 3), (rs1, 3), (rs2, 2)] [(rs1, 3), (rs2, 2)] ∧
    ∀ v, s.curveOf ix = some v →
      let f := v.fv
      let p := s.pointAt f rs1.toNat
      (OperandsFit f [(rd, 3), (rs1, 3)] → OperandsTagged s f [(rs1, 3)] →
        ∃ t r, exec (.pdbl rd rs1 ix) s = .next t ∧ PointResult s t f rd.toNat r ∧ DoubleRule f.fld v.crv.a p r) ∧
      (OperandsFit f [(rd, 3), (rs1, 3), (rs2, 3)] → OperandsTagged s f [(rs1, 3), (rs2, 3)] →
        ∃ t r, exec (.padd rd rs1 rs2 ix) s = .next t ∧ PointResult s t f rd.toNat r ∧
          AddRule f.fld v.crv.a p (s.pointAt f rs2.toNat) r) ∧
      (OperandsFit f [(rd, 3), (rs1, 3), (rs2, 2)] → OperandsTagged s f [(rs1, 3), (rs2, 2)] →
        ∃ t r, exec (.pmadd rd rs1 rs2 ix) s = .next t ∧ PointResult s t f rd.toNat r ∧
          AddRule f.fld v.crv.a p
            { x := s.elemAt f rs2.toNat, y := s.elemAt f (rs2.toNat + f.k), z := f.fld.one } r)

/-- R282, R284, R285: PISINF, PONC and PEQ write T and nothing else; their faults in order. -/
def Obligations.CurvePredicates : Prop :=
  ∀ s : State, s.Inv → ∀ (rs1 rs2 : RegIx) (ix : CrvIx),
    let field := (s.curveOf ix).map (·.fv)
    FieldChecks s (.pisinf rs1 ix) field [(rs1, 3)] [(rs1, 3)] ∧
    FieldChecks s (.ponc rs1 ix) field [(rs1, 3)] [(rs1, 3)] ∧
    FieldChecks s (.peq rs1 rs2 ix) field [(rs1, 3), (rs2, 3)] [(rs1, 3), (rs2, 3)] ∧
    ∀ v, s.curveOf ix = some v →
      let f := v.fv
      let g := f.fld
      let p := s.pointAt f rs1.toNat
      let q := s.pointAt f rs2.toNat
      (OperandsFit f [(rs1, 3)] → OperandsTagged s f [(rs1, 3)] →
        (∃ t, exec (.pisinf rs1 ix) s = .next t ∧ OnlyTruth s t (decide (p.z = g.zero))) ∧
        (∃ t, exec (.ponc rs1 ix) s = .next t ∧ OnlyTruth s t (decide (p.z = g.zero ∨
          g.prodOf 2 p.y =
            g.add (g.add (g.prodOf 3 p.x) (g.mul (g.mul v.crv.a p.x) (g.prodOf 4 p.z)))
              (g.mul v.crv.b (g.prodOf 6 p.z)))))) ∧
      (OperandsFit f [(rs1, 3), (rs2, 3)] → OperandsTagged s f [(rs1, 3), (rs2, 3)] →
        ∃ t, exec (.peq rs1 rs2 ix) s = .next t ∧ OnlyTruth s t (decide (
          (p.z = g.zero ∧ q.z = g.zero) ∨
          (p.z ≠ g.zero ∧ q.z ≠ g.zero ∧ g.mul p.x (g.prodOf 2 q.z) = g.mul q.x (g.prodOf 2 p.z) ∧
            g.mul p.y (g.prodOf 3 q.z) = g.mul q.y (g.prodOf 3 p.z)))))

/-- R286 to R288: PSMUL and PSMUL2 give the sweep over the wNAF digits for the window WNAFW; a scalar longer than the group
order raises OutOfRange, after the tag of the scalar; a zero scalar gives (0, 1, 0). -/
def Obligations.ScalarMulCommands : Prop :=
  ∀ s : State, s.Inv → ∀ (rd rs1 rs2 : RegIx) (ix : CrvIx),
    let field := (s.curveOf ix).map (·.fv)
    let i := Instr.psmul rd rs1 rs2 ix
    let i2 := Instr.psmul2 rd rs1 rs2 ix
    let k1 := s.val rs2
    let k2 := (s.regAt (rs2.toNat + 1)).val
    FieldChecks s i field [(rd, 3), (rs1, 3)] [(rs1, 3)] ∧
    (field = none → Faults i2 s .invalidParameter) ∧
    ∀ v, s.curveOf ix = some v →
      let f := v.fv
      let p := s.pointAt f rs1.toNat
      (OperandsFit f [(rd, 3), (rs1, 3)] → OperandsTagged s f [(rs1, 3)] →
        (s.tag rs2 ≠ .raw → Faults i s .incompatibleContext) ∧
        (s.tag rs2 = .raw → 2 ^ v.crv.sbits ≤ k1 → Faults i s .outOfRange) ∧
        (s.tag rs2 = .raw → k1 < 2 ^ v.crv.sbits → ∃ t, exec i s = .next t ∧
          PointResult s t f rd.toNat (scalarMul f.fld v.crv.a p k1 s.wnafw.toNat)) ∧
        (s.tag rs2 = .raw → k1 = 0 → ∃ t, exec i s = .next t ∧
          PointResult s t f rd.toNat { x := f.fld.zero, y := f.fld.one, z := f.fld.zero })) ∧
      (¬(OperandsFit f [(rd, 3), (rs1, 6)] ∧ rs2.toNat + 2 ≤ 64) → Faults i2 s .illegalCommand) ∧
      (OperandsFit f [(rd, 3), (rs1, 6)] → rs2.toNat + 2 ≤ 64 →
        (¬ OperandsTagged s f [(rs1, 6)] ∨ s.tag rs2 ≠ .raw ∨ (s.regAt (rs2.toNat + 1)).tag ≠ .raw →
          Faults i2 s .incompatibleContext) ∧
        (OperandsTagged s f [(rs1, 6)] → s.tag rs2 = .raw → (s.regAt (rs2.toNat + 1)).tag = .raw →
          (2 ^ v.crv.sbits ≤ k1 ∨ 2 ^ v.crv.sbits ≤ k2 → Faults i2 s .outOfRange) ∧
          (k1 < 2 ^ v.crv.sbits → k2 < 2 ^ v.crv.sbits → ∃ t, exec i2 s = .next t ∧
            PointResult s t f rd.toNat
              (scalarMul2 f.fld v.crv.a p k1 (s.pointAt f (rs1.toNat + 3 * f.k)) k2 s.wnafw.toNat))))

/-- R271: on inputs that satisfy the curve equation the results of doubling, addition and negation satisfy it too, over every
tier, whatever the modulus. -/
def Obligations.GroupLawKeepsTheCurve : Prop :=
  ∀ (f : Fld) (a b : Elem) (p q : JPoint), f.wf = true → f.elemOk a = true → f.elemOk b = true → f.pointOk p →
    f.pointOk q → onCurve f a b p = true → onCurve f a b q = true →
    onCurve f a b (double f a p) = true ∧ onCurve f a b (addPoints f a p q) = true ∧
    onCurve f a b (negPoint f p) = true

/-- R288, R289: over a prime field, for a point of the curve, the one-scalar and the two-scalar sweep of every window
represent k * P and k1 * P1 + k2 * P2 in the group of the curve (Mathlib's group of nonsingular points). A Jacobian triple
represents the point at infinity when Z = 0, and (x, y) when Z is not 0, X = x * Z^2 and Y = y * Z^3 (R272, R273). -/
def Obligations.ScalarMultiplesOverPrimeFields : Prop :=
  ∀ (p : ℕ) [Fact p.Prime] (a b : ℕ), a < p →
    let g := Fld.prime p
    let curve : WeierstrassCurve.Affine (ZMod p) := { a₁ := 0, a₂ := 0, a₃ := 0, a₄ := (a : ZMod p), a₆ := (b : ZMod p) }
    let represents : JPoint → curve.Point → Prop := fun j q =>
      g.pointOk j ∧
      match q with
      | .zero => j.z = g.zero
      | .some x y _ => j.z ≠ g.zero ∧ (j.x.headD 0 : ZMod p) = x * (j.z.headD 0 : ZMod p) ^ 2 ∧
          (j.y.headD 0 : ZMod p) = y * (j.z.headD 0 : ZMod p) ^ 3
    ∀ (j1 j2 : JPoint) (q1 q2 : curve.Point), represents j1 q1 → represents j2 q2 → ∀ k1 k2 w : ℕ, 1 ≤ w →
      represents (scalarMul g [a] j1 k1 w) (k1 • q1) ∧
      represents (scalarMul2 g [a] j1 k1 j2 k2 w) (k1 • q1 + k2 • q2)

/-! ### wNAF commands (46_wnaf.md) -/

/-- R310, R313: the digits sum to the scalar; a non-zero digit is odd and at most 2^w - 1 in absolute value and is followed by
w zeros; the last digit is positive for k > 0; the length is at most bit_length(k) + 1; `wnaf(0, w) = [0]`. The lower bound
on the length that R313 (d) states is left out: the rule's own example `wnaf(11, 4) = [11]` is against it (log 20). -/
def Obligations.WnafProperties : Prop :=
  ∀ k w : Nat, 1 ≤ w →
    digitSum (wnaf k w) = k ∧
    (∀ d ∈ wnaf k w, d ≠ 0 → d % 2 = 1 ∧ d.natAbs ≤ 2 ^ w - 1) ∧
    (∀ i j : Nat, i < j → j ≤ i + w → (wnaf k w).getD i 0 ≠ 0 → (wnaf k w).getD j 0 = 0) ∧
    (0 < k → 0 < (wnaf k w).getLastD 0) ∧
    (wnaf k w).length ≤ bitLength k + 1 ∧ 1 ≤ (wnaf k w).length ∧ wnaf 0 w = [0]

/-- R76, R311, R312: WNAFENC writes each digit as a 16-bit number, low byte first, and the count to x[rd]; WNAFDEC sums such
numbers and refuses a count above BITS + 1 and a sum outside the register; after WNAFENC the bytes decode to the scalar. -/
def Obligations.WnafCommands : Prop :=
  ∀ s : State, s.Inv → ∀ (rd rs1 rs2 : RegIx) (w : BitVec 4),
    let addr := s.val rs2
    let ds := wnaf (s.val rs1) w.toNat
    let n := s.val rs1
    (w = 0#4 → Faults (.wnafenc rd rs1 rs2 w) s .invalidParameter) ∧
    (w ≠ 0#4 → s.tag rs1 ≠ .raw → Faults (.wnafenc rd rs1 rs2 w) s .incompatibleContext) ∧
    (w ≠ 0#4 → s.tag rs1 = .raw → s.InsideDm addr (2 * ds.length) →
      ∃ t, exec (.wnafenc rd rs1 rs2 w) s = .next t ∧ t = { s with x := t.x, dm := t.dm, pc := s.pc + 1#19 } ∧
        t.regAt rd.toNat = { val := ds.length, tag := .raw } ∧ (∀ k, k ≠ rd.toNat → t.regAt k = s.regAt k) ∧
        (∀ j, j < ds.length → digitOf (t.byteAt (addr + 2 * j)) (t.byteAt (addr + 2 * j + 1)) = ds.getD j 0) ∧
        (∀ a, (a < addr ∨ addr + 2 * ds.length ≤ a) → t.byteAt a = s.byteAt a) ∧
        (∀ i, t.wordAt i = s.wordAt i) ∧
        (rd ≠ rs2 → ∀ rd', ∃ u, exec (.wnafdec rd' rd rs2) t = .next u ∧ RawResult t u rd' (s.val rs1))) ∧
    (s.tag rs1 ≠ .raw → Faults (.wnafdec rd rs1 rs2) s .incompatibleContext) ∧
    (s.tag rs1 = .raw → s.par.bits + 1 < n → Faults (.wnafdec rd rs1 rs2) s .outOfRange) ∧
    (s.tag rs1 = .raw → n ≤ s.par.bits + 1 → s.InsideDm addr (2 * n) →
      let sum := digitSum ((List.range n).map
        (fun j => digitOf (s.byteAt (addr + 2 * j)) (s.byteAt (addr + 2 * j + 1))))
      (sum < 0 ∨ (2 ^ s.par.bits : ℤ) ≤ sum → Faults (.wnafdec rd rs1 rs2) s .outOfRange) ∧
      (0 ≤ sum → sum < (2 ^ s.par.bits : ℤ) →
        ∃ t v, exec (.wnafdec rd rs1 rs2) s = .next t ∧ RawResult s t rd v ∧ (v : ℤ) = sum))

/-! ### Pairing commands (47_pairing.md) -/

/-- R34, R321, R322: PRGDEF defines the pairing configuration when every condition of R321 holds, with E = (p^k - 1) / r, and
otherwise raises the fault of the first condition that fails. -/
def Obligations.DefinePairing : Prop :=
  ∀ s : State, s.Inv → ∀ (g1 g2 : CrvIx) (neg : Bool) (rs1 rs2 : RegIx) (lvl : TwrIx),
    let i := Instr.prgdef g1 g2 neg rs1 rs2 lvl
    (s.prg ≠ none ∨ s.curveOf g1 = none ∨ s.curveOf g2 = none ∨ s.fieldOf (.tower lvl) = none →
      Faults i s .invalidParameter) ∧
    ∀ c1 c2 gt, s.prg = none → s.curveOf g1 = some c1 → s.curveOf g2 = some c2 → s.fieldOf (.tower lvl) = some gt →
      let shape := c1.crv.fd = .prime gt.root ∧ c1.crv.twist = .noTwist ∧ c2.crv.twist ≠ .noTwist ∧
        c2.crv.fd ∈ s.tiersBelow 9 (.tower lvl) ∧ c1.crv.r = c2.crv.r
      let g := gt.fld
      let w := s.elemAt gt rs2.toNat
      let w4 := g.prodOf 4 w
      let w6 := g.prodOf 6 w
      let twist := (c2.crv.twist = .typeD ∧ g.mul (g.embed c2.crv.a) w4 = g.embed c1.crv.a ∧
          g.mul (g.embed c2.crv.b) w6 = g.embed c1.crv.b) ∨
        (c2.crv.twist = .typeM ∧ g.embed c2.crv.a = g.mul (g.embed c1.crv.a) w4 ∧
          g.embed c2.crv.b = g.mul (g.embed c1.crv.b) w6)
      let fits := OperandsFit gt [(rs2, 1)]
      let tags := s.tag rs1 = .raw ∧ OperandsTagged s gt [(rs2, 1)]
      let values := s.val rs1 ≠ 0 ∧ c1.crv.r ∣ gt.ctx.m ^ gt.k - 1 ∧ twist
      (¬ shape → Faults i s .invalidParameter) ∧
      (shape → ¬ fits → Faults i s .illegalCommand) ∧
      (shape → fits → ¬ tags → Faults i s .incompatibleContext) ∧
      (shape → fits → tags → ¬ values → Faults i s .invalidParameter) ∧
      (shape → fits → tags → values → ∃ t e, exec i s = .next t ∧ t = { s with prg := t.prg, pc := s.pc + 1#19 } ∧
        t.prg = some e ∧ e.g1 = g1 ∧ e.g2 = g2 ∧ e.twr = lvl ∧ e.neg = neg ∧ e.loop = s.val rs1 ∧ e.omega = w ∧
        e.e * c1.crv.r = gt.ctx.m ^ gt.k - 1)

/-- R323, R324, R327, R328: PRECG1 and PRECG2 refuse the point at infinity and a point off the curve; PRECG1 keeps the affine
pair (x, y) of the point, PRECG2 the lines of the doubling and addition steps over the bits of the loop count from
(x2, y2, 1) on, as many as the loop count needs, or refuses a degenerate step; nothing but the slot changes. That they
complete on a non-zero Z without inverse, which only a composite modulus allows, with a pair that is then free, is the
model's choice (log 13); where Z has an inverse the pair is the one of R323 and R324. -/
def Obligations.Precomputation : Prop :=
  ∀ s : State, s.Inv → ∀ (slot : SlotIx) (rs1 : RegIx),
    let i1 := Instr.precg1 slot rs1
    let i2 := Instr.precg2 slot rs1
    FieldChecks s i1 (s.pairingOf.map (·.g1.fv)) [(rs1, 3)] [(rs1, 3)] ∧
    FieldChecks s i2 (s.pairingOf.map (·.g2.fv)) [(rs1, 3)] [(rs1, 3)] ∧
    ∀ v, s.pairingOf = some v →
      (OperandsFit v.g1.fv [(rs1, 3)] → OperandsTagged s v.g1.fv [(rs1, 3)] →
        let g := v.g1.fv.fld
        let p := s.pointAt v.g1.fv rs1.toNat
        (p.z = g.zero ∨ onCurve g v.g1.crv.a v.g1.crv.b p = false → Faults i1 s .invalidPairingInput) ∧
        (p.z ≠ g.zero → onCurve g v.g1.crv.a v.g1.crv.b p = true →
          ∃ t x y, exec i1 s = .next t ∧ t = { s with pre := t.pre, pc := s.pc + 1#19 } ∧
            t.preAt slot = some (.g1 x y) ∧ (∀ n, n ≠ slot → t.preAt n = s.preAt n) ∧
            (v.g1.fv.ctx.m.Prime ∨ g.HasInverse p.z →
              g.mul x (g.prodOf 2 p.z) = p.x ∧ g.mul y (g.prodOf 3 p.z) = p.y))) ∧
      (OperandsFit v.g2.fv [(rs1, 3)] → OperandsTagged s v.g2.fv [(rs1, 3)] →
        let g := v.g2.fv.fld
        let p := s.pointAt v.g2.fv rs1.toNat
        (p.z = g.zero ∨ onCurve g v.g2.crv.a v.g2.crv.b p = false → Faults i2 s .invalidPairingInput) ∧
        (p.z ≠ g.zero → onCurve g v.g2.crv.a v.g2.crv.b p = true → ∃ x2 y2,
          (v.g2.fv.ctx.m.Prime ∨ g.HasInverse p.z →
            g.mul x2 (g.prodOf 2 p.z) = p.x ∧ g.mul y2 (g.prodOf 3 p.z) = p.y) ∧
          ∀ lines, precomputeG2 g v.g2.crv.a v.g2.crv.b v.prg.loop p = some lines ↔
            LineChain g v.g2.crv.a x2 y2 v.prg.loop (bitLength v.prg.loop - 1) { x := x2, y := y2, z := g.one } lines) ∧
        (precomputeG2 g v.g2.crv.a v.g2.crv.b v.prg.loop p = none → Faults i2 s .invalidPairingInput) ∧
        (∀ lines, precomputeG2 g v.g2.crv.a v.g2.crv.b v.prg.loop p = some lines →
          lines.length = lineCount v.prg.loop ∧
          ∃ t, exec i2 s = .next t ∧ t = { s with pre := t.pre, pc := s.pc + 1#19 } ∧
            t.preAt slot = some (.g2 lines) ∧ ∀ n, n ≠ slot → t.preAt n = s.preAt n))

/-- R324: the coefficients of a doubling step are `2*Y*Z^3`, `-(M*Z^2)` and `M*X - 2*Y^2`, those of an addition step `Z*H`,
`-S` and `S*x2 - y2*Z*H`, and the point goes on by the group law; the line of a doubling step passes through T, the line of
an addition step through T and through Q; and a step is refused exactly where R324 refuses it. -/
def Obligations.LinesPassThroughTheirPoints : Prop :=
  ∀ (f : Fld) (a x2 y2 : Elem) (t : JPoint), f.wf = true → f.elemOk a = true → f.elemOk x2 = true →
    f.elemOk y2 = true → f.pointOk t →
    (∀ l u, doublingStep f a t = some (l, u) →
      TangentRule f a t l u ∧ l.passes f t ∧ u = double f a t) ∧
    (∀ l u, additionStep f a x2 y2 t = some (l, u) →
      ChordRule f a x2 y2 t l u ∧ l.passes f t ∧ l.passes f { x := x2, y := y2, z := f.one } ∧
      u = addPoints f a t { x := x2, y := y2, z := f.one }) ∧
    (doublingStep f a t = none ↔ t.z = f.zero ∨ t.y = f.zero) ∧
    (additionStep f a x2 y2 t = none ↔ t.z = f.zero ∨ f.mul x2 (f.prodOf 2 t.z) = t.x)

/-- R325, R326, R329, R330, R332, R333: MLOOP and DMLOOP give the Miller value of the precomputations in the slots they name,
FEXP the power E, RPAIR the power E of the Miller value of two points; their faults in order. The Miller value is what R326
accumulates from the values of R325, inverted for a negative loop count, where an accumulator of zero is refused; with a
positive loop count MLOOP and DMLOOP always complete. ExtraSteps is the identity (R331, log 2). That the loop completes on a
non-zero accumulator without inverse, which only a composite modulus allows, is the model's choice (log 13). -/
def Obligations.PairingCommands : Prop :=
  ∀ s : State, s.Inv → ∀ (rd rs1 rs2 : RegIx) (s1 s2 s3 s4 : SlotIx),
    let im := Instr.mloop rd s1 s2
    let id := Instr.dmloop rd s1 s2 s3 s4
    let ir := Instr.rpair rd rs1 rs2
    (s.pairingOf = none → Faults im s .invalidParameter ∧ Faults id s .invalidParameter ∧
      Faults ir s .invalidParameter) ∧
    FieldChecks s (.fexp rd rs1) (s.pairingOf.map (·.gt)) [(rd, 1), (rs1, 1)] [(rs1, 1)] ∧
    ∀ v, s.pairingOf = some v →
      let g := v.gt.fld
      (∀ pairs : List PairPre, ∃ f,
        MillerAccumulates g v.g2.crv.twist v.prg.omega v.prg.loop pairs f ∧
        (v.prg.neg = false → v.miller pairs = some f) ∧
        (v.prg.neg = true → f = g.zero → v.miller pairs = none) ∧
        (v.prg.neg = true → f ≠ g.zero → ∃ m, v.miller pairs = some m ∧
          (v.gt.ctx.m.Prime ∨ g.HasInverse f → g.mul f m = g.one))) ∧
      (s.pairOf s1 s2 = none → Faults im s .invalidParameter ∧ Faults id s .invalidParameter) ∧
      (s.pairOf s3 s4 = none → Faults id s .invalidParameter) ∧
      (∀ p, s.pairOf s1 s2 = some p →
        (¬ OperandsFit v.gt [(rd, 1)] → Faults im s .illegalCommand) ∧
        (OperandsFit v.gt [(rd, 1)] →
          (v.miller [p] = none → Faults im s .invalidPairingInput) ∧
          (∀ m, v.miller [p] = some m → ∃ t, exec im s = .next t ∧ ElemResult s t v.gt rd.toNat m) ∧
          (v.prg.neg = false → v.miller [p] ≠ none)) ∧
        ∀ q, s.pairOf s3 s4 = some q →
          (¬ OperandsFit v.gt [(rd, 1)] → Faults id s .illegalCommand) ∧
          (OperandsFit v.gt [(rd, 1)] →
            (v.miller [p, q] = none → Faults id s .invalidPairingInput) ∧
            (∀ m, v.miller [p, q] = some m → ∃ t, exec id s = .next t ∧ ElemResult s t v.gt rd.toNat m) ∧
            (v.prg.neg = false → v.miller [p, q] ≠ none))) ∧
      (OperandsFit v.gt [(rd, 1), (rs1, 1)] → OperandsTagged s v.gt [(rs1, 1)] →
        ∃ t, exec (.fexp rd rs1) s = .next t ∧
          ElemResult s t v.gt rd.toNat (g.prodOf v.prg.e (s.elemAt v.gt rs1.toNat))) ∧
      (let fits := OperandsFit v.gt [(rd, 1)] ∧ OperandsFit v.g1.fv [(rs1, 3)] ∧ OperandsFit v.g2.fv [(rs2, 3)]
       let tags := OperandsTagged s v.g1.fv [(rs1, 3)] ∧ OperandsTagged s v.g2.fv [(rs2, 3)]
       let p := s.pointAt v.g1.fv rs1.toNat
       let q := s.pointAt v.g2.fv rs2.toNat
       (¬ fits → Faults ir s .illegalCommand) ∧
       (fits → ¬ tags → Faults ir s .incompatibleContext) ∧
       (fits → tags →
         (precomputeG1 v.g1.fv.fld v.g1.crv.a v.g1.crv.b p = none ∨
           precomputeG2 v.g2.fv.fld v.g2.crv.a v.g2.crv.b v.prg.loop q = none → Faults ir s .invalidPairingInput) ∧
         ∀ x y lines, precomputeG1 v.g1.fv.fld v.g1.crv.a v.g1.crv.b p = some (x, y) →
           precomputeG2 v.g2.fv.fld v.g2.crv.a v.g2.crv.b v.prg.loop q = some lines →
           (v.miller [{ xP := x, yP := y, lines := lines }] = none → Faults ir s .invalidPairingInput) ∧
           ∀ m, v.miller [{ xP := x, yP := y, lines := lines }] = some m →
             ∃ t, exec ir s = .next t ∧ ElemResult s t v.gt rd.toNat (g.prodOf v.prg.e m)))

/-- R333: where the sequence PRECG1, PRECG2, MLOOP, FEXP runs without a fault, RPAIR completes from the same state with the
same element, and it reads and writes no slot. -/
def Obligations.ReducedPairingIsTheSequence : Prop :=
  ∀ (s t1 t2 t3 t4 : State) (rd rs1 rs2 : RegIx) (a b : SlotIx), s.Inv → s.run = .run → a ≠ b →
    exec (.precg1 a rs1) s = .next t1 → exec (.precg2 b rs2) t1 = .next t2 →
    exec (.mloop rd a b) t2 = .next t3 → exec (.fexp rd rd) t3 = .next t4 → t4.run = .run →
    ∃ t, exec (.rpair rd rs1 rs2) s = .next t ∧ OnlyRegisters s t rd.toNat s.gtDegree ∧
      ∀ j, j < s.gtDegree → t.regAt (rd.toNat + j) = t4.regAt (rd.toNat + j)

/-- R326: the result of the two-pair loop is the product of the two one-pair results; for a negative loop count this is
stated over a prime modulus, where every non-zero accumulator has one inverse. It rests on ExtraSteps being the identity,
as R331 has a model take it (log 2). -/
def Obligations.DoubleLoopIsTheProduct : Prop :=
  ∀ (s : State) (v : PairingView) (p q : PairPre) (a b : Elem), s.Inv → s.pairingOf = some v →
    (v.prg.neg = false ∨ v.gt.ctx.m.Prime) → v.miller [p] = some a → v.miller [q] = some b →
    v.miller [p, q] = some (v.gt.fld.mul a b)

/-! ### The host's side (10_state.md section 8, 20_memory.md R87, 60_exceptions.md, 70_reset_and_hazards.md) -/

/-- R30, R45, R51, R360, R361: the codes of STATE, its transitions by the engine, by a write of CTRL (SRST, CLR, IE, START in
this order) and by the reset input, and no others; CLR clears the fault registers and keeps everything else; IRQ. That a
write of CTRL with SRST = 1 in RUN also takes its other bits is DEDUCED from R45 (log 19). -/
def Obligations.RunStateTransitions : Prop :=
  ∀ s : State,
    [RunState.idle, .run, .halted, .fault].map RunState.code = [0, 1, 2, 3] ∧
    s.irq = (s.ie && (decide (s.run = .halted) || decide (s.run = .fault))) ∧
    (∀ t, step s = .next t → (s.run ≠ .run → t = s) ∧ t.ie = s.ie ∧
      (s.run = .run → t.run = .run ∨ t.run = .fault ∨
        (t.run = .halted ∧ decode (s.wordAt s.pc.toNat) = .ok .halt))) ∧
    (∀ v : Word,
      let u := hostAct s (.writeCsr 36 v)
      let r1 := if v.getLsbD 3 then RunState.idle else s.run
      let r2 := if v.getLsbD 1 ∧ r1 = .fault then RunState.idle else r1
      u.run = (if v.getLsbD 0 ∧ (r2 = .idle ∨ r2 = .halted) then RunState.run else r2) ∧
      (s.run = .run → v.getLsbD 3 = false → u = s) ∧
      (¬(s.run = .run ∧ v.getLsbD 3 = false) → u.ie = v.getLsbD 2) ∧
      (s.run ≠ .run → v.getLsbD 3 = false →
        u = { s with run := u.run, ie := u.ie, err := u.err, epc := u.epc, einfo := u.einfo } ∧
        (v.getLsbD 1 = true → s.run = .fault → u.err = 0#8 ∧ u.epc = 0#19 ∧ u.einfo = 0#32) ∧
        (v.getLsbD 1 = false ∨ s.run ≠ .fault → u.err = s.err ∧ u.epc = s.epc ∧ u.einfo = s.einfo))) ∧
    (hostAct s .resetLine).run = .idle ∧
    (∀ a : HostAct, a ≠ .resetLine → (∀ v, a ≠ .writeCsr 36 v) → (hostAct s a).run = s.run)

/-- R390, R391: the reset input and CTRL.SRST give every register, flag, table entry and slot its reset value in every state;
CM keeps all its words and DM all its bytes but those that an abandoned ST, FENC or WNAFENC was writing; after power-on the
contents of both are unspecified, in the model the free values of Config (log 4). -/
def Obligations.ResetKeepsMemories : Prop :=
  (∀ s : State,
    let t := hostAct s .resetLine
    t = { State.resetWith s.par with cm := s.cm, dm := t.dm, fresh := t.fresh } ∧
    hostAct s (.writeCsr 36 8#32) = t ∧ t.irq = false ∧
    (∀ i, t.wordAt i = s.wordAt i) ∧
    (∀ a, a ∉ s.abandoned → t.byteAt a = s.byteAt a) ∧
    (∀ a ∈ s.abandoned, s.run = .run ∧ ∃ i addr n, decode (s.wordAt s.pc.toNat) = .ok i ∧
      s.dataAccess i = some (addr, n) ∧ s.InsideDm addr n ∧ addr ≤ a ∧ a < addr + n ∧
      ((∃ r b m, i = .st r b m) ∨ (∃ r b, i = .fenc r b) ∨ ∃ r b c w, i = .wnafenc r b c w))) ∧
  (∀ i, State.reset.wordAt i = Config.cmPowerOn i) ∧ ∀ a, State.reset.byteAt a = Config.dmPowerOn a

/-- R36 to R49, R77, R87: in RUN the host reads STATUS and writes nothing but a reset; in the other states it reads and writes
CM and DM, reads the CSRs, and writes FLAGS, WNAFW and PC, an illegal window and every other offset being ignored (CTRL:
RunStateTransitions). That its other reads in RUN are the free values of Config is the model's form of "unspecified" (log
11); that an access outside CM or DM reads a free value and writes nothing is the model's choice (log 12). That a WNAFW write
looks at bits 3:0 only is DEDUCED from the head of 10_state.md section 8 (log 18); that a byte write of CM replaces its byte
of the word and leaves the others is DEDUCED from R77 (log 22). -/
def Obligations.HostWindow : Prop :=
  ∀ s : State,
    (∀ k, s.hostReadCsr k 8 = BitVec.ofNat 32 s.run.code) ∧
    (s.run = .run →
      (∀ a : HostAct, a ≠ .resetLine → (∀ v : Word, v.getLsbD 3 = true → a ≠ .writeCsr 36 v) → hostAct s a = s) ∧
      (∀ k off, off ≠ 8 → s.hostReadCsr k off = Config.hostReadFree k off) ∧
      ∀ k n, s.hostReadCm k n = Config.hostReadFree k n ∧
        s.hostReadDm k n = (Config.hostReadFree k n).extractLsb' 0 8) ∧
    (s.run ≠ .run →
      (∀ k off, off % 4 ≠ 0 ∨ 44 ≤ off → s.hostReadCsr k off = 0#32) ∧
      (∀ k, s.hostReadCsr k 0 = 0x4D4D0007#32 ∧ (s.par.valid = true → CfgFields s.par (s.hostReadCsr k 4).toNat) ∧
        s.hostReadCsr k 12 = BitVec.ofNat 32 s.err.toNat ∧
        s.hostReadCsr k 16 = BitVec.ofNat 32 s.epc.toNat ∧ s.hostReadCsr k 20 = s.einfo ∧
        FlagsFields s (s.hostReadCsr k 24).toNat ∧
        s.hostReadCsr k 28 = BitVec.ofNat 32 s.wnafw.toNat ∧ s.hostReadCsr k 32 = BitVec.ofNat 32 s.pc.toNat ∧
        s.hostReadCsr k 36 = BitVec.ofNat 32 (4 * s.ie.toNat) ∧ DefvFields s (s.hostReadCsr k 40).toNat) ∧
      (∀ k i, s.hostReadCm k i = if i < s.par.cmWords then s.wordAt i else Config.hostReadFree k i) ∧
      (∀ k a, s.hostReadDm k a = if a < s.par.dmBytes then s.byteAt a else (Config.hostReadFree k a).extractLsb' 0 8) ∧
      (∀ v, hostAct s (.writeCsr 24 v) =
        { s with c := v.getLsbD 0, z := v.getLsbD 1, l := v.getLsbD 2, t := v.getLsbD 3 }) ∧
      (∀ v : Word, hostAct s (.writeCsr 28 v) =
        if 1 ≤ v.toNat % 16 ∧ v.toNat % 16 ≤ s.par.wMax then { s with wnafw := BitVec.ofNat 4 (v.toNat % 16) } else s) ∧
      (∀ v : Word, hostAct s (.writeCsr 32 v) = { s with pc := BitVec.ofNat 19 (v.toNat % 2 ^ 18) }) ∧
      (∀ off v, off ∉ [24, 28, 32, 36] → hostAct s (.writeCsr off v) = s) ∧
      (∀ i w, i < s.par.cmWords →
        let u := hostAct s (.writeCm i w)
        u = { s with cm := u.cm } ∧ u.wordAt i = w ∧ ∀ n, n ≠ i → u.wordAt n = s.wordAt n) ∧
      (∀ i j b, i < s.par.cmWords → j < 4 →
        let u := hostAct s (.writeCmByte (4 * i + j) b)
        u = { s with cm := u.cm } ∧ (∀ n, n ≠ i → u.wordAt n = s.wordAt n) ∧
        ∀ n, n < 4 → (u.wordAt i).extractLsb' (8 * n) 8 = if n = j then b else (s.wordAt i).extractLsb' (8 * n) 8) ∧
      (∀ a b, a < s.par.dmBytes →
        let u := hostAct s (.writeDm a b)
        u = { s with dm := u.dm } ∧ u.byteAt a = b ∧ ∀ n, n ≠ a → u.byteAt n = s.byteAt n) ∧
      (∀ i w, s.par.cmWords ≤ i → hostAct s (.writeCm i w) = s) ∧
      (∀ a b, 4 * s.par.cmWords ≤ a → hostAct s (.writeCmByte a b) = s) ∧
      (∀ a b, s.par.dmBytes ≤ a → hostAct s (.writeDm a b) = s))
end

