-- ==== Sys2Proof/Laws/Arith.lean ====
section
/-! SUPPORT. What the integer functions compute: bit length, difference, power, inverse, Montgomery reduction and the two
representations. -/

namespace Sys2Proof.Machine

/-! ### Bit length -/

/-- `bit_length(v)` is the least width that holds `v` (R11). -/
theorem bitLength_le_iff (v n : Nat) : bitLength v ≤ n ↔ v < 2 ^ n := by
  unfold bitLength
  split
  · subst_vars; simp
  · rename_i h
    rw [Nat.succ_le_iff, Nat.log2_lt h]

theorem lt_two_pow_bitLength (v : Nat) : v < 2 ^ bitLength v := (bitLength_le_iff v _).mp le_rfl

@[simp] theorem bitLength_zero : bitLength 0 = 0 := rfl

theorem bitLength_pos {v : Nat} (h : v ≠ 0) : 0 < bitLength v := by simp [bitLength, h]

/-! ### Differences modulo m -/

theorem subMod_lt {m : Nat} (h : 0 < m) (a b : Nat) : subMod m a b < m := by
  unfold subMod
  have h1 : (0 : Int) ≤ ((a : Int) - b) % m := Int.emod_nonneg _ (by omega)
  have h2 : ((a : Int) - b) % m < m := Int.emod_lt_of_pos _ (by omega)
  omega

/-- `subMod m a b` is the residue of the exact difference (R162, R186). -/
theorem subMod_cast {m : Nat} (h : 0 < m) (a b : Nat) : (subMod m a b : Int) = ((a : Int) - b) % m := by
  unfold subMod
  have h1 : (0 : Int) ≤ ((a : Int) - b) % m := Int.emod_nonneg _ (by omega)
  omega

theorem subMod_add {m : Nat} (h : 0 < m) (a b : Nat) : (subMod m a b + b) % m = a % m := by
  have h1 := subMod_cast h a b
  have h2 : ((subMod m a b + b : Nat) : Int) % m = (a : Int) % m := by
    push_cast; rw [h1, Int.emod_add_emod]; congr 1; ring
  exact_mod_cast h2

theorem subMod_of_le {m a b : Nat} (hb : b ≤ a) (ha : a < m) : subMod m a b = a - b := by
  unfold subMod
  rw [Int.emod_eq_of_lt (by omega) (by omega)]
  omega

/-! ### Powers -/

section
variable {α M : Type} [CommMonoid M] {mul : α → α → α} {one : α} {φ : α → M} {P : α → Prop}

/-- Square-and-multiply computes the power in every commutative monoid the multiplication maps into. -/
theorem powFrom_map (hP : ∀ x y, P x → P y → P (mul x y)) (hφ : ∀ x y, P x → P y → φ (mul x y) = φ x * φ y)
    {a : α} (ha : P a) (e n : Nat) (r : α) (hr : P r) :
    P (powFrom mul a e n r) ∧ φ (powFrom mul a e n r) = φ r ^ 2 ^ n * φ a ^ (e % 2 ^ n) := by
  induction n generalizing r with
  | zero => exact ⟨hr, by simp [powFrom, Nat.mod_one]⟩
  | succ n ih =>
    have hrr := hP r r hr hr
    have hsplit : e % 2 ^ (n + 1) = e % 2 ^ n + 2 ^ n * (e / 2 ^ n % 2) := by rw [pow_succ, Nat.mod_mul]
    have hbit : e.testBit n = decide (e / 2 ^ n % 2 = 1) := Nat.testBit_eq_decide_div_mod_eq
    unfold powFrom
    by_cases hb : e / 2 ^ n % 2 = 1
    · simp only [hbit, hb, decide_true, if_true]
      obtain ⟨h1, h2⟩ := ih _ (hP _ _ hrr ha)
      refine ⟨h1, ?_⟩
      rw [h2, hφ _ _ hrr ha, hφ _ _ hr hr, hsplit, hb, mul_pow, ← pow_two, ← pow_mul, pow_add, Nat.mul_one, pow_add (φ a),
        Nat.pow_one, Nat.mul_comm 2, mul_assoc, mul_comm (φ a ^ 2 ^ n)]
    · have h0 : e / 2 ^ n % 2 = 0 := by omega
      simp only [hbit, hb, decide_false, Bool.false_eq_true, if_false]
      obtain ⟨h1, h2⟩ := ih _ hrr
      refine ⟨h1, ?_⟩
      rw [h2, hφ _ _ hr hr, hsplit, h0, ← pow_two, ← pow_mul, Nat.mul_zero, Nat.pow_succ, Nat.mul_comm 2]
      simp

/-- `powBy` computes the power (R190). -/
theorem powBy_map (hP : ∀ x y, P x → P y → P (mul x y)) (hφ : ∀ x y, P x → P y → φ (mul x y) = φ x * φ y)
    (h1 : P one) (hφ1 : φ one = 1) {a : α} (ha : P a) (e : Nat) :
    P (powBy mul one a e) ∧ φ (powBy mul one a e) = φ a ^ e := by
  obtain ⟨h, h'⟩ := powFrom_map hP hφ ha e (bitLength e) one h1
  refine ⟨h, ?_⟩
  rw [powBy, h', hφ1, one_pow, one_mul, Nat.mod_eq_of_lt (lt_two_pow_bitLength e)]

end

/-- `modPow` is the power modulo m (R190). -/
theorem modPow_eq (m a e : Nat) : modPow m a e = a ^ e % m := by
  have hred : ∀ n r, r % m = r → powFrom (fun x y => x * y % m) a e n r % m = powFrom (fun x y => x * y % m) a e n r := by
    intro n
    induction n with
    | zero => exact fun r hr => hr
    | succ n ih => intro r _; exact ih _ (by split <;> exact Nat.mod_mod _ _)
  have h := powBy_map (mul := fun x y => x * y % m) (one := 1 % m) (φ := fun x : Nat => (x : ZMod m))
    (P := fun _ => True) (a := a) (fun _ _ _ _ => trivial) (fun x y _ _ => by simp) trivial (by simp) trivial e
  have h2 : ((modPow m a e : Nat) : ZMod m) = ((a ^ e : Nat) : ZMod m) := by
    simpa [modPow] using h.2
  rw [ZMod.natCast_eq_natCast_iff'] at h2
  rw [← h2]
  exact (hred _ _ (Nat.mod_mod _ _)).symm

/-! ### Inverses -/

/-- The Euclidean loop ends with the greatest common divisor and a cofactor of the second argument (R193). -/
theorem euclid_spec (m a : Nat) (n : Nat) : ∀ (r0 r1 : Nat) (t0 t1 : Int), r1 < n →
    (t0 * a) ≡ r0 [ZMOD m] → (t1 * a) ≡ r1 [ZMOD m] →
    (euclid n r0 r1 t0 t1).1 = Nat.gcd r0 r1 ∧
      ((euclid n r0 r1 t0 t1).2 * a) ≡ (Nat.gcd r0 r1 : Nat) [ZMOD m] := by
  induction n with
  | zero => intro r0 r1 t0 t1 h; omega
  | succ n ih =>
    intro r0 r1 t0 t1 h h0 h1
    unfold euclid
    by_cases hr : r1 = 0
    · subst hr; simpa using h0
    · rw [if_neg hr]
      have hmod : r0 - r0 / r1 * r1 = r0 % r1 := by
        have := Nat.div_add_mod' r0 r1; omega
      have hlt : r0 % r1 < n := by have := Nat.mod_lt r0 (Nat.pos_of_ne_zero hr); omega
      have hstep : ((t0 - ((r0 / r1 : Nat) : Int) * t1) * a) ≡ ((r0 % r1 : Nat) : Int) [ZMOD m] := by
        have hr01 : ((r0 % r1 : Nat) : Int) = r0 - ((r0 / r1 : Nat) : Int) * r1 := by
          have h := congrArg (Nat.cast : Nat → Int) (Nat.div_add_mod' r0 r1)
          push_cast at h ⊢
          linarith
        rw [hr01, sub_mul, mul_assoc]
        exact h0.sub (h1.mul_left _)
      have := ih r1 (r0 % r1) t1 (t0 - ((r0 / r1 : Nat) : Int) * t1) hlt h1 hstep
      rw [hmod]
      have hg : Nat.gcd r1 (r0 % r1) = Nat.gcd r0 r1 := by
        rw [Nat.gcd_comm r0 r1, Nat.gcd_rec r1 r0, Nat.gcd_comm]
      rw [← hg]; exact this

/-- The inverse exists exactly for units, is reduced, and its product with the operand is 1 (R188). -/
theorem modInv_eq_some {m a v : Nat} (hm : 1 < m) : modInv m a = some v ↔ v < m ∧ v * a % m = 1 := by
  have hspec := euclid_spec m a (a + 1) m a 0 1 (by omega) (by simp [Int.ModEq]) (by simp)
  unfold modInv
  by_cases ha : a = 0
  · subst ha; simp
  · rw [if_neg ha]
    rcases hE : euclid (a + 1) m a 0 1 with ⟨g, t⟩
    rw [hE] at hspec
    simp only at hspec ⊢
    obtain ⟨hg, ht⟩ := hspec
    have hmi : (0 : Int) < m := by omega
    constructor
    · intro h
      split at h
      · rename_i h1
        have hv : (t % (m : Int)).toNat = v := by simpa using h
        have hnn : (0 : Int) ≤ t % m := Int.emod_nonneg _ (by omega)
        have hltm : t % m < m := Int.emod_lt_of_pos _ hmi
        refine ⟨by omega, ?_⟩
        have hvi : (v : Int) = t % m := by omega
        rw [← hg, h1] at ht
        have hva : ((v * a : Nat) : Int) ≡ 1 [ZMOD m] := by
          push_cast; rw [hvi]
          exact ((Int.mod_modEq t m).mul_right _).trans ht
        have := hva.eq
        rw [Int.emod_eq_of_lt (by omega : (0 : Int) ≤ 1) (by omega)] at this
        exact_mod_cast this
      · cases h
    · rintro ⟨hv, hva⟩
      have hcop : Nat.gcd m a = 1 := by
        have hdvd : Nat.gcd m a ∣ 1 := by
          have h1 : Nat.gcd m a ∣ v * a := (Nat.gcd_dvd_right m a).mul_left v
          have h2 : Nat.gcd m a ∣ m := Nat.gcd_dvd_left m a
          rw [← hva]
          exact (Nat.dvd_mod_iff h2).mpr h1
        exact Nat.dvd_one.mp hdvd
      rw [hg, hcop, if_pos rfl]
      rw [hcop] at ht
      congr 1
      have hva' : ((v : Int) * a) ≡ 1 [ZMOD m] := by
        have : ((v * a % m : Nat) : Int) = 1 := by rw [hva]; rfl
        push_cast at this
        unfold Int.ModEq
        rw [this, Int.emod_eq_of_lt (by omega) (by omega)]
      have heq : t ≡ v [ZMOD m] := by
        have e1 : t ≡ t * ((v : Int) * a) [ZMOD m] := by simpa using (hva'.symm.mul_left t)
        have e2 : t * ((v : Int) * a) ≡ (v : Int) [ZMOD m] := by
          have : t * ((v : Int) * a) = (v : Int) * (t * a) := by ring
          rw [this]; simpa using ht.mul_left (v : Int)
        exact e1.trans e2
      have := heq.eq
      rw [Int.emod_eq_of_lt (by omega : (0 : Int) ≤ (v : Int)) (by omega)] at this
      omega

/-- There is no inverse exactly for a non-unit (R188). -/
theorem modInv_eq_none {m a : Nat} (hm : 1 < m) : modInv m a = none ↔ Nat.gcd a m ≠ 1 := by
  constructor
  · intro h hg
    obtain ⟨v, hv⟩ := Nat.exists_mul_mod_eq_one_of_coprime hg hm
    have : modInv m a = some (v % m) := by
      rw [modInv_eq_some hm]
      refine ⟨Nat.mod_lt _ (by omega), ?_⟩
      rw [Nat.mod_mul_mod, Nat.mul_comm]; exact hv.2
    rw [h] at this; cases this
  · intro hg
    cases h : modInv m a with
    | none => rfl
    | some v =>
      exfalso; apply hg
      obtain ⟨_, hva⟩ := (modInv_eq_some hm).mp h
      have hdvd : Nat.gcd a m ∣ 1 := by
        rw [← hva]
        exact (Nat.dvd_mod_iff (Nat.gcd_dvd_right a m)).mpr ((Nat.gcd_dvd_left a m).mul_left v)
      exact Nat.dvd_one.mp hdvd

/-- A unit has an inverse. -/
theorem modInv_of_coprime {m a : Nat} (hm : 1 < m) (h : Nat.Coprime a m) : ∃ v, modInv m a = some v := by
  cases hv : modInv m a with
  | none => exact absurd h ((modInv_eq_none hm).mp hv)
  | some v => exact ⟨v, rfl⟩

/-! ### Montgomery reduction and representations (R24, R183) -/

theorem montReduce_lt {m : Nat} (hm : 0 < m) (bits t : Nat) : montReduce bits m t < m := Nat.mod_lt _ hm

/-- For odd m, `montReduce` times `2^bits` is the value reduced (R183). -/
theorem montReduce_spec {m : Nat} (hodd : m % 2 = 1) (hm : 1 < m) (bits t : Nat) :
    montReduce bits m t * 2 ^ bits % m = t % m := by
  have hcop : Nat.Coprime (2 ^ bits % m) m := by
    have h2 : Nat.Coprime 2 m := Nat.coprime_two_left.mpr (Nat.odd_iff.mpr hodd)
    have h3 : Nat.gcd (2 ^ bits) m = 1 := h2.pow_left bits
    rw [Nat.Coprime, ← Nat.gcd_rec, Nat.gcd_comm]
    exact h3
  obtain ⟨v, hv⟩ := modInv_of_coprime hm hcop
  have hs := ((modInv_eq_some hm).mp hv).2
  unfold montReduce
  rw [hv, Option.getD_some]
  have h1 : v * 2 ^ bits % m = 1 := by rw [← hs, Nat.mul_mod_mod]
  rw [Nat.mod_mul_mod, Nat.mul_assoc, ← Nat.mul_mod_mod, h1, Nat.mul_one]

/-- A reduced value is determined by its product with the radix. -/
theorem eq_of_mul_radix {m : Nat} (hodd : m % 2 = 1) {bits a b : Nat} (ha : a < m) (hb : b < m)
    (h : a * 2 ^ bits % m = b * 2 ^ bits % m) : a = b := by
  have h2 : Nat.Coprime 2 m := Nat.coprime_two_left.mpr (Nat.odd_iff.mpr hodd)
  have hc : Nat.gcd m (2 ^ bits) = 1 := (h2.pow_left bits).symm
  have : a ≡ b [MOD m] := Nat.ModEq.cancel_right_of_coprime hc h
  rwa [Nat.ModEq, Nat.mod_eq_of_lt ha, Nat.mod_eq_of_lt hb] at this

/-- The moduli of a context in use: odd and above 1 for Montgomery, not 0 for Barrett (R180). -/
def Ctx.admitted (c : Ctx) : Prop :=
  match c.red with
  | .montgomery _ _ => c.m % 2 = 1 ∧ 1 < c.m
  | .barrett _ => 0 < c.m

theorem Ctx.admitted_pos {c : Ctx} (h : c.admitted) : 0 < c.m := by
  unfold Ctx.admitted at h
  split at h <;> omega

/-- A stored form is below the modulus (R25). -/
theorem Ctx.rep_lt {c : Ctx} (h : 0 < c.m) (bits a : Nat) : c.rep bits a < c.m := by
  unfold Ctx.rep
  split <;> exact Nat.mod_lt _ h

/-- A logical value is below the modulus (R25). -/
theorem Ctx.logical_lt {c : Ctx} (h : 0 < c.m) {bits v : Nat} (hv : v < c.m) : c.logical bits v < c.m := by
  unfold Ctx.logical
  split
  · exact montReduce_lt h _ _
  · exact hv

/-- The logical value of a stored form is the value it stands for (R24). -/
theorem Ctx.logical_rep {c : Ctx} (h : c.admitted) {bits a : Nat} (ha : a < c.m) : c.logical bits (c.rep bits a) = a := by
  have hpos := Ctx.admitted_pos h
  unfold Ctx.admitted at h
  unfold Ctx.logical Ctx.rep
  cases hr : c.red with
  | montgomery n r =>
    simp only [hr] at h ⊢
    refine eq_of_mul_radix h.1 (montReduce_lt hpos _ _) ha (bits := bits) ?_
    rw [montReduce_spec h.1 h.2, Nat.mod_mod]
  | barrett mu =>
    simp only
    exact Nat.mod_eq_of_lt ha

/-- The stored form of a logical value is the form it came from (R24). -/
theorem Ctx.rep_logical {c : Ctx} (h : c.admitted) {bits v : Nat} (hv : v < c.m) : c.rep bits (c.logical bits v) = v := by
  unfold Ctx.admitted at h
  unfold Ctx.logical Ctx.rep
  cases hr : c.red with
  | montgomery n r =>
    simp only [hr] at h ⊢
    rw [montReduce_spec h.1 h.2, Nat.mod_eq_of_lt hv]
  | barrett mu =>
    simp only
    exact Nat.mod_eq_of_lt hv

/-- The stored form of 0 is 0 (R211). -/
theorem Ctx.rep_zero (c : Ctx) (bits : Nat) : c.rep bits 0 = 0 := by
  unfold Ctx.rep
  split <;> simp

end Sys2Proof.Machine
end

