-- ==== Sys2Proof/Laws/State.lean ====
section
/-! SUPPORT. What each update of the state does to each field, and what a register reads after a register write. -/

namespace Sys2Proof.Machine

variable (s : State)

/-! ### `setReg` -/

@[simp] theorem State.setReg_par (n v : Nat) (g : Tag) : (s.setReg n v g).par = s.par := rfl
@[simp] theorem State.setReg_x (n v : Nat) (g : Tag) : (s.setReg n v g).x = s.x.setIfInBounds n { val := v % 2 ^ s.par.bits, tag := g } := rfl
@[simp] theorem State.setReg_acc (n v : Nat) (g : Tag) : (s.setReg n v g).acc = s.acc := rfl
@[simp] theorem State.setReg_c (n v : Nat) (g : Tag) : (s.setReg n v g).c = s.c := rfl
@[simp] theorem State.setReg_z (n v : Nat) (g : Tag) : (s.setReg n v g).z = s.z := rfl
@[simp] theorem State.setReg_l (n v : Nat) (g : Tag) : (s.setReg n v g).l = s.l := rfl
@[simp] theorem State.setReg_t (n v : Nat) (g : Tag) : (s.setReg n v g).t = s.t := rfl
@[simp] theorem State.setReg_pc (n v : Nat) (g : Tag) : (s.setReg n v g).pc = s.pc := rfl
@[simp] theorem State.setReg_run (n v : Nat) (g : Tag) : (s.setReg n v g).run = s.run := rfl
@[simp] theorem State.setReg_err (n v : Nat) (g : Tag) : (s.setReg n v g).err = s.err := rfl
@[simp] theorem State.setReg_epc (n v : Nat) (g : Tag) : (s.setReg n v g).epc = s.epc := rfl
@[simp] theorem State.setReg_einfo (n v : Nat) (g : Tag) : (s.setReg n v g).einfo = s.einfo := rfl
@[simp] theorem State.setReg_wnafw (n v : Nat) (g : Tag) : (s.setReg n v g).wnafw = s.wnafw := rfl
@[simp] theorem State.setReg_ie (n v : Nat) (g : Tag) : (s.setReg n v g).ie = s.ie := rfl
@[simp] theorem State.setReg_ctx (n v : Nat) (g : Tag) : (s.setReg n v g).ctx = s.ctx := rfl
@[simp] theorem State.setReg_twr (n v : Nat) (g : Tag) : (s.setReg n v g).twr = s.twr := rfl
@[simp] theorem State.setReg_crv (n v : Nat) (g : Tag) : (s.setReg n v g).crv = s.crv := rfl
@[simp] theorem State.setReg_prg (n v : Nat) (g : Tag) : (s.setReg n v g).prg = s.prg := rfl
@[simp] theorem State.setReg_pre (n v : Nat) (g : Tag) : (s.setReg n v g).pre = s.pre := rfl
@[simp] theorem State.setReg_cm (n v : Nat) (g : Tag) : (s.setReg n v g).cm = s.cm := rfl
@[simp] theorem State.setReg_dm (n v : Nat) (g : Tag) : (s.setReg n v g).dm = s.dm := rfl
@[simp] theorem State.setReg_fresh (n v : Nat) (g : Tag) : (s.setReg n v g).fresh = s.fresh := rfl

/-! ### `setRaw` -/

@[simp] theorem State.setRaw_par (r : RegIx) (v : Nat) : (s.setRaw r v).par = s.par := rfl
@[simp] theorem State.setRaw_x (r : RegIx) (v : Nat) : (s.setRaw r v).x = s.x.setIfInBounds r.toNat { val := v % 2 ^ s.par.bits, tag := .raw } := rfl
@[simp] theorem State.setRaw_acc (r : RegIx) (v : Nat) : (s.setRaw r v).acc = s.acc := rfl
@[simp] theorem State.setRaw_c (r : RegIx) (v : Nat) : (s.setRaw r v).c = s.c := rfl
@[simp] theorem State.setRaw_z (r : RegIx) (v : Nat) : (s.setRaw r v).z = s.z := rfl
@[simp] theorem State.setRaw_l (r : RegIx) (v : Nat) : (s.setRaw r v).l = s.l := rfl
@[simp] theorem State.setRaw_t (r : RegIx) (v : Nat) : (s.setRaw r v).t = s.t := rfl
@[simp] theorem State.setRaw_pc (r : RegIx) (v : Nat) : (s.setRaw r v).pc = s.pc := rfl
@[simp] theorem State.setRaw_run (r : RegIx) (v : Nat) : (s.setRaw r v).run = s.run := rfl
@[simp] theorem State.setRaw_err (r : RegIx) (v : Nat) : (s.setRaw r v).err = s.err := rfl
@[simp] theorem State.setRaw_epc (r : RegIx) (v : Nat) : (s.setRaw r v).epc = s.epc := rfl
@[simp] theorem State.setRaw_einfo (r : RegIx) (v : Nat) : (s.setRaw r v).einfo = s.einfo := rfl
@[simp] theorem State.setRaw_wnafw (r : RegIx) (v : Nat) : (s.setRaw r v).wnafw = s.wnafw := rfl
@[simp] theorem State.setRaw_ie (r : RegIx) (v : Nat) : (s.setRaw r v).ie = s.ie := rfl
@[simp] theorem State.setRaw_ctx (r : RegIx) (v : Nat) : (s.setRaw r v).ctx = s.ctx := rfl
@[simp] theorem State.setRaw_twr (r : RegIx) (v : Nat) : (s.setRaw r v).twr = s.twr := rfl
@[simp] theorem State.setRaw_crv (r : RegIx) (v : Nat) : (s.setRaw r v).crv = s.crv := rfl
@[simp] theorem State.setRaw_prg (r : RegIx) (v : Nat) : (s.setRaw r v).prg = s.prg := rfl
@[simp] theorem State.setRaw_pre (r : RegIx) (v : Nat) : (s.setRaw r v).pre = s.pre := rfl
@[simp] theorem State.setRaw_cm (r : RegIx) (v : Nat) : (s.setRaw r v).cm = s.cm := rfl
@[simp] theorem State.setRaw_dm (r : RegIx) (v : Nat) : (s.setRaw r v).dm = s.dm := rfl
@[simp] theorem State.setRaw_fresh (r : RegIx) (v : Nat) : (s.setRaw r v).fresh = s.fresh := rfl

/-! ### `setC` -/

@[simp] theorem State.setC_par (b : Bool) : (s.setC b).par = s.par := rfl
@[simp] theorem State.setC_x (b : Bool) : (s.setC b).x = s.x := rfl
@[simp] theorem State.setC_acc (b : Bool) : (s.setC b).acc = s.acc := rfl
@[simp] theorem State.setC_c (b : Bool) : (s.setC b).c = b := rfl
@[simp] theorem State.setC_z (b : Bool) : (s.setC b).z = s.z := rfl
@[simp] theorem State.setC_l (b : Bool) : (s.setC b).l = s.l := rfl
@[simp] theorem State.setC_t (b : Bool) : (s.setC b).t = s.t := rfl
@[simp] theorem State.setC_pc (b : Bool) : (s.setC b).pc = s.pc := rfl
@[simp] theorem State.setC_run (b : Bool) : (s.setC b).run = s.run := rfl
@[simp] theorem State.setC_err (b : Bool) : (s.setC b).err = s.err := rfl
@[simp] theorem State.setC_epc (b : Bool) : (s.setC b).epc = s.epc := rfl
@[simp] theorem State.setC_einfo (b : Bool) : (s.setC b).einfo = s.einfo := rfl
@[simp] theorem State.setC_wnafw (b : Bool) : (s.setC b).wnafw = s.wnafw := rfl
@[simp] theorem State.setC_ie (b : Bool) : (s.setC b).ie = s.ie := rfl
@[simp] theorem State.setC_ctx (b : Bool) : (s.setC b).ctx = s.ctx := rfl
@[simp] theorem State.setC_twr (b : Bool) : (s.setC b).twr = s.twr := rfl
@[simp] theorem State.setC_crv (b : Bool) : (s.setC b).crv = s.crv := rfl
@[simp] theorem State.setC_prg (b : Bool) : (s.setC b).prg = s.prg := rfl
@[simp] theorem State.setC_pre (b : Bool) : (s.setC b).pre = s.pre := rfl
@[simp] theorem State.setC_cm (b : Bool) : (s.setC b).cm = s.cm := rfl
@[simp] theorem State.setC_dm (b : Bool) : (s.setC b).dm = s.dm := rfl
@[simp] theorem State.setC_fresh (b : Bool) : (s.setC b).fresh = s.fresh := rfl

/-! ### `setZL` -/

@[simp] theorem State.setZL_par (b d : Bool) : (s.setZL b d).par = s.par := rfl
@[simp] theorem State.setZL_x (b d : Bool) : (s.setZL b d).x = s.x := rfl
@[simp] theorem State.setZL_acc (b d : Bool) : (s.setZL b d).acc = s.acc := rfl
@[simp] theorem State.setZL_c (b d : Bool) : (s.setZL b d).c = s.c := rfl
@[simp] theorem State.setZL_z (b d : Bool) : (s.setZL b d).z = b := rfl
@[simp] theorem State.setZL_l (b d : Bool) : (s.setZL b d).l = d := rfl
@[simp] theorem State.setZL_t (b d : Bool) : (s.setZL b d).t = s.t := rfl
@[simp] theorem State.setZL_pc (b d : Bool) : (s.setZL b d).pc = s.pc := rfl
@[simp] theorem State.setZL_run (b d : Bool) : (s.setZL b d).run = s.run := rfl
@[simp] theorem State.setZL_err (b d : Bool) : (s.setZL b d).err = s.err := rfl
@[simp] theorem State.setZL_epc (b d : Bool) : (s.setZL b d).epc = s.epc := rfl
@[simp] theorem State.setZL_einfo (b d : Bool) : (s.setZL b d).einfo = s.einfo := rfl
@[simp] theorem State.setZL_wnafw (b d : Bool) : (s.setZL b d).wnafw = s.wnafw := rfl
@[simp] theorem State.setZL_ie (b d : Bool) : (s.setZL b d).ie = s.ie := rfl
@[simp] theorem State.setZL_ctx (b d : Bool) : (s.setZL b d).ctx = s.ctx := rfl
@[simp] theorem State.setZL_twr (b d : Bool) : (s.setZL b d).twr = s.twr := rfl
@[simp] theorem State.setZL_crv (b d : Bool) : (s.setZL b d).crv = s.crv := rfl
@[simp] theorem State.setZL_prg (b d : Bool) : (s.setZL b d).prg = s.prg := rfl
@[simp] theorem State.setZL_pre (b d : Bool) : (s.setZL b d).pre = s.pre := rfl
@[simp] theorem State.setZL_cm (b d : Bool) : (s.setZL b d).cm = s.cm := rfl
@[simp] theorem State.setZL_dm (b d : Bool) : (s.setZL b d).dm = s.dm := rfl
@[simp] theorem State.setZL_fresh (b d : Bool) : (s.setZL b d).fresh = s.fresh := rfl

/-! ### `setT` -/

@[simp] theorem State.setT_par (b : Bool) : (s.setT b).par = s.par := rfl
@[simp] theorem State.setT_x (b : Bool) : (s.setT b).x = s.x := rfl
@[simp] theorem State.setT_acc (b : Bool) : (s.setT b).acc = s.acc := rfl
@[simp] theorem State.setT_c (b : Bool) : (s.setT b).c = s.c := rfl
@[simp] theorem State.setT_z (b : Bool) : (s.setT b).z = s.z := rfl
@[simp] theorem State.setT_l (b : Bool) : (s.setT b).l = s.l := rfl
@[simp] theorem State.setT_t (b : Bool) : (s.setT b).t = b := rfl
@[simp] theorem State.setT_pc (b : Bool) : (s.setT b).pc = s.pc := rfl
@[simp] theorem State.setT_run (b : Bool) : (s.setT b).run = s.run := rfl
@[simp] theorem State.setT_err (b : Bool) : (s.setT b).err = s.err := rfl
@[simp] theorem State.setT_epc (b : Bool) : (s.setT b).epc = s.epc := rfl
@[simp] theorem State.setT_einfo (b : Bool) : (s.setT b).einfo = s.einfo := rfl
@[simp] theorem State.setT_wnafw (b : Bool) : (s.setT b).wnafw = s.wnafw := rfl
@[simp] theorem State.setT_ie (b : Bool) : (s.setT b).ie = s.ie := rfl
@[simp] theorem State.setT_ctx (b : Bool) : (s.setT b).ctx = s.ctx := rfl
@[simp] theorem State.setT_twr (b : Bool) : (s.setT b).twr = s.twr := rfl
@[simp] theorem State.setT_crv (b : Bool) : (s.setT b).crv = s.crv := rfl
@[simp] theorem State.setT_prg (b : Bool) : (s.setT b).prg = s.prg := rfl
@[simp] theorem State.setT_pre (b : Bool) : (s.setT b).pre = s.pre := rfl
@[simp] theorem State.setT_cm (b : Bool) : (s.setT b).cm = s.cm := rfl
@[simp] theorem State.setT_dm (b : Bool) : (s.setT b).dm = s.dm := rfl
@[simp] theorem State.setT_fresh (b : Bool) : (s.setT b).fresh = s.fresh := rfl

/-! ### `setFlags` -/

@[simp] theorem State.setFlags_par (v : Nat) : (s.setFlags v).par = s.par := rfl
@[simp] theorem State.setFlags_x (v : Nat) : (s.setFlags v).x = s.x := rfl
@[simp] theorem State.setFlags_acc (v : Nat) : (s.setFlags v).acc = s.acc := rfl
@[simp] theorem State.setFlags_c (v : Nat) : (s.setFlags v).c = v.testBit 0 := rfl
@[simp] theorem State.setFlags_z (v : Nat) : (s.setFlags v).z = v.testBit 1 := rfl
@[simp] theorem State.setFlags_l (v : Nat) : (s.setFlags v).l = v.testBit 2 := rfl
@[simp] theorem State.setFlags_t (v : Nat) : (s.setFlags v).t = v.testBit 3 := rfl
@[simp] theorem State.setFlags_pc (v : Nat) : (s.setFlags v).pc = s.pc := rfl
@[simp] theorem State.setFlags_run (v : Nat) : (s.setFlags v).run = s.run := rfl
@[simp] theorem State.setFlags_err (v : Nat) : (s.setFlags v).err = s.err := rfl
@[simp] theorem State.setFlags_epc (v : Nat) : (s.setFlags v).epc = s.epc := rfl
@[simp] theorem State.setFlags_einfo (v : Nat) : (s.setFlags v).einfo = s.einfo := rfl
@[simp] theorem State.setFlags_wnafw (v : Nat) : (s.setFlags v).wnafw = s.wnafw := rfl
@[simp] theorem State.setFlags_ie (v : Nat) : (s.setFlags v).ie = s.ie := rfl
@[simp] theorem State.setFlags_ctx (v : Nat) : (s.setFlags v).ctx = s.ctx := rfl
@[simp] theorem State.setFlags_twr (v : Nat) : (s.setFlags v).twr = s.twr := rfl
@[simp] theorem State.setFlags_crv (v : Nat) : (s.setFlags v).crv = s.crv := rfl
@[simp] theorem State.setFlags_prg (v : Nat) : (s.setFlags v).prg = s.prg := rfl
@[simp] theorem State.setFlags_pre (v : Nat) : (s.setFlags v).pre = s.pre := rfl
@[simp] theorem State.setFlags_cm (v : Nat) : (s.setFlags v).cm = s.cm := rfl
@[simp] theorem State.setFlags_dm (v : Nat) : (s.setFlags v).dm = s.dm := rfl
@[simp] theorem State.setFlags_fresh (v : Nat) : (s.setFlags v).fresh = s.fresh := rfl

/-! ### `setCtx` -/

@[simp] theorem State.setCtx_par (i : CtxIx) (e : Ctx) : (s.setCtx i e).par = s.par := rfl
@[simp] theorem State.setCtx_x (i : CtxIx) (e : Ctx) : (s.setCtx i e).x = s.x := rfl
@[simp] theorem State.setCtx_acc (i : CtxIx) (e : Ctx) : (s.setCtx i e).acc = s.acc := rfl
@[simp] theorem State.setCtx_c (i : CtxIx) (e : Ctx) : (s.setCtx i e).c = s.c := rfl
@[simp] theorem State.setCtx_z (i : CtxIx) (e : Ctx) : (s.setCtx i e).z = s.z := rfl
@[simp] theorem State.setCtx_l (i : CtxIx) (e : Ctx) : (s.setCtx i e).l = s.l := rfl
@[simp] theorem State.setCtx_t (i : CtxIx) (e : Ctx) : (s.setCtx i e).t = s.t := rfl
@[simp] theorem State.setCtx_pc (i : CtxIx) (e : Ctx) : (s.setCtx i e).pc = s.pc := rfl
@[simp] theorem State.setCtx_run (i : CtxIx) (e : Ctx) : (s.setCtx i e).run = s.run := rfl
@[simp] theorem State.setCtx_err (i : CtxIx) (e : Ctx) : (s.setCtx i e).err = s.err := rfl
@[simp] theorem State.setCtx_epc (i : CtxIx) (e : Ctx) : (s.setCtx i e).epc = s.epc := rfl
@[simp] theorem State.setCtx_einfo (i : CtxIx) (e : Ctx) : (s.setCtx i e).einfo = s.einfo := rfl
@[simp] theorem State.setCtx_wnafw (i : CtxIx) (e : Ctx) : (s.setCtx i e).wnafw = s.wnafw := rfl
@[simp] theorem State.setCtx_ie (i : CtxIx) (e : Ctx) : (s.setCtx i e).ie = s.ie := rfl
@[simp] theorem State.setCtx_ctx (i : CtxIx) (e : Ctx) : (s.setCtx i e).ctx = s.ctx.setIfInBounds i.toNat (some e) := rfl
@[simp] theorem State.setCtx_twr (i : CtxIx) (e : Ctx) : (s.setCtx i e).twr = s.twr := rfl
@[simp] theorem State.setCtx_crv (i : CtxIx) (e : Ctx) : (s.setCtx i e).crv = s.crv := rfl
@[simp] theorem State.setCtx_prg (i : CtxIx) (e : Ctx) : (s.setCtx i e).prg = s.prg := rfl
@[simp] theorem State.setCtx_pre (i : CtxIx) (e : Ctx) : (s.setCtx i e).pre = s.pre := rfl
@[simp] theorem State.setCtx_cm (i : CtxIx) (e : Ctx) : (s.setCtx i e).cm = s.cm := rfl
@[simp] theorem State.setCtx_dm (i : CtxIx) (e : Ctx) : (s.setCtx i e).dm = s.dm := rfl
@[simp] theorem State.setCtx_fresh (i : CtxIx) (e : Ctx) : (s.setCtx i e).fresh = s.fresh := rfl

/-! ### `setTwr` -/

@[simp] theorem State.setTwr_par (i : TwrIx) (e : Twr) : (s.setTwr i e).par = s.par := rfl
@[simp] theorem State.setTwr_x (i : TwrIx) (e : Twr) : (s.setTwr i e).x = s.x := rfl
@[simp] theorem State.setTwr_acc (i : TwrIx) (e : Twr) : (s.setTwr i e).acc = s.acc := rfl
@[simp] theorem State.setTwr_c (i : TwrIx) (e : Twr) : (s.setTwr i e).c = s.c := rfl
@[simp] theorem State.setTwr_z (i : TwrIx) (e : Twr) : (s.setTwr i e).z = s.z := rfl
@[simp] theorem State.setTwr_l (i : TwrIx) (e : Twr) : (s.setTwr i e).l = s.l := rfl
@[simp] theorem State.setTwr_t (i : TwrIx) (e : Twr) : (s.setTwr i e).t = s.t := rfl
@[simp] theorem State.setTwr_pc (i : TwrIx) (e : Twr) : (s.setTwr i e).pc = s.pc := rfl
@[simp] theorem State.setTwr_run (i : TwrIx) (e : Twr) : (s.setTwr i e).run = s.run := rfl
@[simp] theorem State.setTwr_err (i : TwrIx) (e : Twr) : (s.setTwr i e).err = s.err := rfl
@[simp] theorem State.setTwr_epc (i : TwrIx) (e : Twr) : (s.setTwr i e).epc = s.epc := rfl
@[simp] theorem State.setTwr_einfo (i : TwrIx) (e : Twr) : (s.setTwr i e).einfo = s.einfo := rfl
@[simp] theorem State.setTwr_wnafw (i : TwrIx) (e : Twr) : (s.setTwr i e).wnafw = s.wnafw := rfl
@[simp] theorem State.setTwr_ie (i : TwrIx) (e : Twr) : (s.setTwr i e).ie = s.ie := rfl
@[simp] theorem State.setTwr_ctx (i : TwrIx) (e : Twr) : (s.setTwr i e).ctx = s.ctx := rfl
@[simp] theorem State.setTwr_twr (i : TwrIx) (e : Twr) : (s.setTwr i e).twr = s.twr.setIfInBounds i.toNat (some e) := rfl
@[simp] theorem State.setTwr_crv (i : TwrIx) (e : Twr) : (s.setTwr i e).crv = s.crv := rfl
@[simp] theorem State.setTwr_prg (i : TwrIx) (e : Twr) : (s.setTwr i e).prg = s.prg := rfl
@[simp] theorem State.setTwr_pre (i : TwrIx) (e : Twr) : (s.setTwr i e).pre = s.pre := rfl
@[simp] theorem State.setTwr_cm (i : TwrIx) (e : Twr) : (s.setTwr i e).cm = s.cm := rfl
@[simp] theorem State.setTwr_dm (i : TwrIx) (e : Twr) : (s.setTwr i e).dm = s.dm := rfl
@[simp] theorem State.setTwr_fresh (i : TwrIx) (e : Twr) : (s.setTwr i e).fresh = s.fresh := rfl

/-! ### `setCrv` -/

@[simp] theorem State.setCrv_par (i : CrvIx) (e : Crv) : (s.setCrv i e).par = s.par := rfl
@[simp] theorem State.setCrv_x (i : CrvIx) (e : Crv) : (s.setCrv i e).x = s.x := rfl
@[simp] theorem State.setCrv_acc (i : CrvIx) (e : Crv) : (s.setCrv i e).acc = s.acc := rfl
@[simp] theorem State.setCrv_c (i : CrvIx) (e : Crv) : (s.setCrv i e).c = s.c := rfl
@[simp] theorem State.setCrv_z (i : CrvIx) (e : Crv) : (s.setCrv i e).z = s.z := rfl
@[simp] theorem State.setCrv_l (i : CrvIx) (e : Crv) : (s.setCrv i e).l = s.l := rfl
@[simp] theorem State.setCrv_t (i : CrvIx) (e : Crv) : (s.setCrv i e).t = s.t := rfl
@[simp] theorem State.setCrv_pc (i : CrvIx) (e : Crv) : (s.setCrv i e).pc = s.pc := rfl
@[simp] theorem State.setCrv_run (i : CrvIx) (e : Crv) : (s.setCrv i e).run = s.run := rfl
@[simp] theorem State.setCrv_err (i : CrvIx) (e : Crv) : (s.setCrv i e).err = s.err := rfl
@[simp] theorem State.setCrv_epc (i : CrvIx) (e : Crv) : (s.setCrv i e).epc = s.epc := rfl
@[simp] theorem State.setCrv_einfo (i : CrvIx) (e : Crv) : (s.setCrv i e).einfo = s.einfo := rfl
@[simp] theorem State.setCrv_wnafw (i : CrvIx) (e : Crv) : (s.setCrv i e).wnafw = s.wnafw := rfl
@[simp] theorem State.setCrv_ie (i : CrvIx) (e : Crv) : (s.setCrv i e).ie = s.ie := rfl
@[simp] theorem State.setCrv_ctx (i : CrvIx) (e : Crv) : (s.setCrv i e).ctx = s.ctx := rfl
@[simp] theorem State.setCrv_twr (i : CrvIx) (e : Crv) : (s.setCrv i e).twr = s.twr := rfl
@[simp] theorem State.setCrv_crv (i : CrvIx) (e : Crv) : (s.setCrv i e).crv = s.crv.setIfInBounds i.toNat (some e) := rfl
@[simp] theorem State.setCrv_prg (i : CrvIx) (e : Crv) : (s.setCrv i e).prg = s.prg := rfl
@[simp] theorem State.setCrv_pre (i : CrvIx) (e : Crv) : (s.setCrv i e).pre = s.pre := rfl
@[simp] theorem State.setCrv_cm (i : CrvIx) (e : Crv) : (s.setCrv i e).cm = s.cm := rfl
@[simp] theorem State.setCrv_dm (i : CrvIx) (e : Crv) : (s.setCrv i e).dm = s.dm := rfl
@[simp] theorem State.setCrv_fresh (i : CrvIx) (e : Crv) : (s.setCrv i e).fresh = s.fresh := rfl

/-! ### `setPrg` -/

@[simp] theorem State.setPrg_par (e : Prg) : (s.setPrg e).par = s.par := rfl
@[simp] theorem State.setPrg_x (e : Prg) : (s.setPrg e).x = s.x := rfl
@[simp] theorem State.setPrg_acc (e : Prg) : (s.setPrg e).acc = s.acc := rfl
@[simp] theorem State.setPrg_c (e : Prg) : (s.setPrg e).c = s.c := rfl
@[simp] theorem State.setPrg_z (e : Prg) : (s.setPrg e).z = s.z := rfl
@[simp] theorem State.setPrg_l (e : Prg) : (s.setPrg e).l = s.l := rfl
@[simp] theorem State.setPrg_t (e : Prg) : (s.setPrg e).t = s.t := rfl
@[simp] theorem State.setPrg_pc (e : Prg) : (s.setPrg e).pc = s.pc := rfl
@[simp] theorem State.setPrg_run (e : Prg) : (s.setPrg e).run = s.run := rfl
@[simp] theorem State.setPrg_err (e : Prg) : (s.setPrg e).err = s.err := rfl
@[simp] theorem State.setPrg_epc (e : Prg) : (s.setPrg e).epc = s.epc := rfl
@[simp] theorem State.setPrg_einfo (e : Prg) : (s.setPrg e).einfo = s.einfo := rfl
@[simp] theorem State.setPrg_wnafw (e : Prg) : (s.setPrg e).wnafw = s.wnafw := rfl
@[simp] theorem State.setPrg_ie (e : Prg) : (s.setPrg e).ie = s.ie := rfl
@[simp] theorem State.setPrg_ctx (e : Prg) : (s.setPrg e).ctx = s.ctx := rfl
@[simp] theorem State.setPrg_twr (e : Prg) : (s.setPrg e).twr = s.twr := rfl
@[simp] theorem State.setPrg_crv (e : Prg) : (s.setPrg e).crv = s.crv := rfl
@[simp] theorem State.setPrg_prg (e : Prg) : (s.setPrg e).prg = some e := rfl
@[simp] theorem State.setPrg_pre (e : Prg) : (s.setPrg e).pre = s.pre := rfl
@[simp] theorem State.setPrg_cm (e : Prg) : (s.setPrg e).cm = s.cm := rfl
@[simp] theorem State.setPrg_dm (e : Prg) : (s.setPrg e).dm = s.dm := rfl
@[simp] theorem State.setPrg_fresh (e : Prg) : (s.setPrg e).fresh = s.fresh := rfl

/-! ### `setPre` -/

@[simp] theorem State.setPre_par (i : SlotIx) (e : Pre) : (s.setPre i e).par = s.par := rfl
@[simp] theorem State.setPre_x (i : SlotIx) (e : Pre) : (s.setPre i e).x = s.x := rfl
@[simp] theorem State.setPre_acc (i : SlotIx) (e : Pre) : (s.setPre i e).acc = s.acc := rfl
@[simp] theorem State.setPre_c (i : SlotIx) (e : Pre) : (s.setPre i e).c = s.c := rfl
@[simp] theorem State.setPre_z (i : SlotIx) (e : Pre) : (s.setPre i e).z = s.z := rfl
@[simp] theorem State.setPre_l (i : SlotIx) (e : Pre) : (s.setPre i e).l = s.l := rfl
@[simp] theorem State.setPre_t (i : SlotIx) (e : Pre) : (s.setPre i e).t = s.t := rfl
@[simp] theorem State.setPre_pc (i : SlotIx) (e : Pre) : (s.setPre i e).pc = s.pc := rfl
@[simp] theorem State.setPre_run (i : SlotIx) (e : Pre) : (s.setPre i e).run = s.run := rfl
@[simp] theorem State.setPre_err (i : SlotIx) (e : Pre) : (s.setPre i e).err = s.err := rfl
@[simp] theorem State.setPre_epc (i : SlotIx) (e : Pre) : (s.setPre i e).epc = s.epc := rfl
@[simp] theorem State.setPre_einfo (i : SlotIx) (e : Pre) : (s.setPre i e).einfo = s.einfo := rfl
@[simp] theorem State.setPre_wnafw (i : SlotIx) (e : Pre) : (s.setPre i e).wnafw = s.wnafw := rfl
@[simp] theorem State.setPre_ie (i : SlotIx) (e : Pre) : (s.setPre i e).ie = s.ie := rfl
@[simp] theorem State.setPre_ctx (i : SlotIx) (e : Pre) : (s.setPre i e).ctx = s.ctx := rfl
@[simp] theorem State.setPre_twr (i : SlotIx) (e : Pre) : (s.setPre i e).twr = s.twr := rfl
@[simp] theorem State.setPre_crv (i : SlotIx) (e : Pre) : (s.setPre i e).crv = s.crv := rfl
@[simp] theorem State.setPre_prg (i : SlotIx) (e : Pre) : (s.setPre i e).prg = s.prg := rfl
@[simp] theorem State.setPre_pre (i : SlotIx) (e : Pre) : (s.setPre i e).pre = s.pre.setIfInBounds i.toNat (some e) := rfl
@[simp] theorem State.setPre_cm (i : SlotIx) (e : Pre) : (s.setPre i e).cm = s.cm := rfl
@[simp] theorem State.setPre_dm (i : SlotIx) (e : Pre) : (s.setPre i e).dm = s.dm := rfl
@[simp] theorem State.setPre_fresh (i : SlotIx) (e : Pre) : (s.setPre i e).fresh = s.fresh := rfl

/-! ### `putBytes` -/

@[simp] theorem State.putBytes_par (a : Nat) (bs : List Byte) : (s.putBytes a bs).par = s.par := rfl
@[simp] theorem State.putBytes_x (a : Nat) (bs : List Byte) : (s.putBytes a bs).x = s.x := rfl
@[simp] theorem State.putBytes_acc (a : Nat) (bs : List Byte) : (s.putBytes a bs).acc = s.acc := rfl
@[simp] theorem State.putBytes_c (a : Nat) (bs : List Byte) : (s.putBytes a bs).c = s.c := rfl
@[simp] theorem State.putBytes_z (a : Nat) (bs : List Byte) : (s.putBytes a bs).z = s.z := rfl
@[simp] theorem State.putBytes_l (a : Nat) (bs : List Byte) : (s.putBytes a bs).l = s.l := rfl
@[simp] theorem State.putBytes_t (a : Nat) (bs : List Byte) : (s.putBytes a bs).t = s.t := rfl
@[simp] theorem State.putBytes_pc (a : Nat) (bs : List Byte) : (s.putBytes a bs).pc = s.pc := rfl
@[simp] theorem State.putBytes_run (a : Nat) (bs : List Byte) : (s.putBytes a bs).run = s.run := rfl
@[simp] theorem State.putBytes_err (a : Nat) (bs : List Byte) : (s.putBytes a bs).err = s.err := rfl
@[simp] theorem State.putBytes_epc (a : Nat) (bs : List Byte) : (s.putBytes a bs).epc = s.epc := rfl
@[simp] theorem State.putBytes_einfo (a : Nat) (bs : List Byte) : (s.putBytes a bs).einfo = s.einfo := rfl
@[simp] theorem State.putBytes_wnafw (a : Nat) (bs : List Byte) : (s.putBytes a bs).wnafw = s.wnafw := rfl
@[simp] theorem State.putBytes_ie (a : Nat) (bs : List Byte) : (s.putBytes a bs).ie = s.ie := rfl
@[simp] theorem State.putBytes_ctx (a : Nat) (bs : List Byte) : (s.putBytes a bs).ctx = s.ctx := rfl
@[simp] theorem State.putBytes_twr (a : Nat) (bs : List Byte) : (s.putBytes a bs).twr = s.twr := rfl
@[simp] theorem State.putBytes_crv (a : Nat) (bs : List Byte) : (s.putBytes a bs).crv = s.crv := rfl
@[simp] theorem State.putBytes_prg (a : Nat) (bs : List Byte) : (s.putBytes a bs).prg = s.prg := rfl
@[simp] theorem State.putBytes_pre (a : Nat) (bs : List Byte) : (s.putBytes a bs).pre = s.pre := rfl
@[simp] theorem State.putBytes_cm (a : Nat) (bs : List Byte) : (s.putBytes a bs).cm = s.cm := rfl
@[simp] theorem State.putBytes_dm (a : Nat) (bs : List Byte) : (s.putBytes a bs).dm = Memory.storeAll s.dm a bs := rfl
@[simp] theorem State.putBytes_fresh (a : Nat) (bs : List Byte) : (s.putBytes a bs).fresh = s.fresh := rfl

/-! ### `takeFault` -/

@[simp] theorem State.takeFault_par (k : FaultKind) (w : Word) : (s.takeFault k w).par = s.par := rfl
@[simp] theorem State.takeFault_x (k : FaultKind) (w : Word) : (s.takeFault k w).x = s.x := rfl
@[simp] theorem State.takeFault_acc (k : FaultKind) (w : Word) : (s.takeFault k w).acc = s.acc := rfl
@[simp] theorem State.takeFault_c (k : FaultKind) (w : Word) : (s.takeFault k w).c = s.c := rfl
@[simp] theorem State.takeFault_z (k : FaultKind) (w : Word) : (s.takeFault k w).z = s.z := rfl
@[simp] theorem State.takeFault_l (k : FaultKind) (w : Word) : (s.takeFault k w).l = s.l := rfl
@[simp] theorem State.takeFault_t (k : FaultKind) (w : Word) : (s.takeFault k w).t = s.t := rfl
@[simp] theorem State.takeFault_pc (k : FaultKind) (w : Word) : (s.takeFault k w).pc = s.pc := rfl
@[simp] theorem State.takeFault_run (k : FaultKind) (w : Word) : (s.takeFault k w).run = .fault := rfl
@[simp] theorem State.takeFault_err (k : FaultKind) (w : Word) : (s.takeFault k w).err = k.code := rfl
@[simp] theorem State.takeFault_epc (k : FaultKind) (w : Word) : (s.takeFault k w).epc = s.pc := rfl
@[simp] theorem State.takeFault_einfo (k : FaultKind) (w : Word) : (s.takeFault k w).einfo = w := rfl
@[simp] theorem State.takeFault_wnafw (k : FaultKind) (w : Word) : (s.takeFault k w).wnafw = s.wnafw := rfl
@[simp] theorem State.takeFault_ie (k : FaultKind) (w : Word) : (s.takeFault k w).ie = s.ie := rfl
@[simp] theorem State.takeFault_ctx (k : FaultKind) (w : Word) : (s.takeFault k w).ctx = s.ctx := rfl
@[simp] theorem State.takeFault_twr (k : FaultKind) (w : Word) : (s.takeFault k w).twr = s.twr := rfl
@[simp] theorem State.takeFault_crv (k : FaultKind) (w : Word) : (s.takeFault k w).crv = s.crv := rfl
@[simp] theorem State.takeFault_prg (k : FaultKind) (w : Word) : (s.takeFault k w).prg = s.prg := rfl
@[simp] theorem State.takeFault_pre (k : FaultKind) (w : Word) : (s.takeFault k w).pre = s.pre := rfl
@[simp] theorem State.takeFault_cm (k : FaultKind) (w : Word) : (s.takeFault k w).cm = s.cm := rfl
@[simp] theorem State.takeFault_dm (k : FaultKind) (w : Word) : (s.takeFault k w).dm = s.dm := rfl
@[simp] theorem State.takeFault_fresh (k : FaultKind) (w : Word) : (s.takeFault k w).fresh = s.fresh := rfl

/-! ### Writes of several registers -/

@[simp] theorem State.setRegs_par (n : Nat) (rs : List Reg) : (s.setRegs n rs).par = s.par := by
  induction rs generalizing s n with
  | nil => rfl
  | cons r rest ih => exact ih _ _
@[simp] theorem State.setRegs_acc (n : Nat) (rs : List Reg) : (s.setRegs n rs).acc = s.acc := by
  induction rs generalizing s n with
  | nil => rfl
  | cons r rest ih => exact ih _ _
@[simp] theorem State.setRegs_c (n : Nat) (rs : List Reg) : (s.setRegs n rs).c = s.c := by
  induction rs generalizing s n with
  | nil => rfl
  | cons r rest ih => exact ih _ _
@[simp] theorem State.setRegs_z (n : Nat) (rs : List Reg) : (s.setRegs n rs).z = s.z := by
  induction rs generalizing s n with
  | nil => rfl
  | cons r rest ih => exact ih _ _
@[simp] theorem State.setRegs_l (n : Nat) (rs : List Reg) : (s.setRegs n rs).l = s.l := by
  induction rs generalizing s n with
  | nil => rfl
  | cons r rest ih => exact ih _ _
@[simp] theorem State.setRegs_t (n : Nat) (rs : List Reg) : (s.setRegs n rs).t = s.t := by
  induction rs generalizing s n with
  | nil => rfl
  | cons r rest ih => exact ih _ _
@[simp] theorem State.setRegs_pc (n : Nat) (rs : List Reg) : (s.setRegs n rs).pc = s.pc := by
  induction rs generalizing s n with
  | nil => rfl
  | cons r rest ih => exact ih _ _
@[simp] theorem State.setRegs_run (n : Nat) (rs : List Reg) : (s.setRegs n rs).run = s.run := by
  induction rs generalizing s n with
  | nil => rfl
  | cons r rest ih => exact ih _ _
@[simp] theorem State.setRegs_err (n : Nat) (rs : List Reg) : (s.setRegs n rs).err = s.err := by
  induction rs generalizing s n with
  | nil => rfl
  | cons r rest ih => exact ih _ _
@[simp] theorem State.setRegs_epc (n : Nat) (rs : List Reg) : (s.setRegs n rs).epc = s.epc := by
  induction rs generalizing s n with
  | nil => rfl
  | cons r rest ih => exact ih _ _
@[simp] theorem State.setRegs_einfo (n : Nat) (rs : List Reg) : (s.setRegs n rs).einfo = s.einfo := by
  induction rs generalizing s n with
  | nil => rfl
  | cons r rest ih => exact ih _ _
@[simp] theorem State.setRegs_wnafw (n : Nat) (rs : List Reg) : (s.setRegs n rs).wnafw = s.wnafw := by
  induction rs generalizing s n with
  | nil => rfl
  | cons r rest ih => exact ih _ _
@[simp] theorem State.setRegs_ie (n : Nat) (rs : List Reg) : (s.setRegs n rs).ie = s.ie := by
  induction rs generalizing s n with
  | nil => rfl
  | cons r rest ih => exact ih _ _
@[simp] theorem State.setRegs_ctx (n : Nat) (rs : List Reg) : (s.setRegs n rs).ctx = s.ctx := by
  induction rs generalizing s n with
  | nil => rfl
  | cons r rest ih => exact ih _ _
@[simp] theorem State.setRegs_twr (n : Nat) (rs : List Reg) : (s.setRegs n rs).twr = s.twr := by
  induction rs generalizing s n with
  | nil => rfl
  | cons r rest ih => exact ih _ _
@[simp] theorem State.setRegs_crv (n : Nat) (rs : List Reg) : (s.setRegs n rs).crv = s.crv := by
  induction rs generalizing s n with
  | nil => rfl
  | cons r rest ih => exact ih _ _
@[simp] theorem State.setRegs_prg (n : Nat) (rs : List Reg) : (s.setRegs n rs).prg = s.prg := by
  induction rs generalizing s n with
  | nil => rfl
  | cons r rest ih => exact ih _ _
@[simp] theorem State.setRegs_pre (n : Nat) (rs : List Reg) : (s.setRegs n rs).pre = s.pre := by
  induction rs generalizing s n with
  | nil => rfl
  | cons r rest ih => exact ih _ _
@[simp] theorem State.setRegs_cm (n : Nat) (rs : List Reg) : (s.setRegs n rs).cm = s.cm := by
  induction rs generalizing s n with
  | nil => rfl
  | cons r rest ih => exact ih _ _
@[simp] theorem State.setRegs_dm (n : Nat) (rs : List Reg) : (s.setRegs n rs).dm = s.dm := by
  induction rs generalizing s n with
  | nil => rfl
  | cons r rest ih => exact ih _ _
@[simp] theorem State.setRegs_fresh (n : Nat) (rs : List Reg) : (s.setRegs n rs).fresh = s.fresh := by
  induction rs generalizing s n with
  | nil => rfl
  | cons r rest ih => exact ih _ _

@[simp] theorem State.setElem_par (v : FieldView) (n : Nat) (a : Elem) : (s.setElem v n a).par = s.par := State.setRegs_par _ _ _
@[simp] theorem State.setElem_acc (v : FieldView) (n : Nat) (a : Elem) : (s.setElem v n a).acc = s.acc := State.setRegs_acc _ _ _
@[simp] theorem State.setElem_c (v : FieldView) (n : Nat) (a : Elem) : (s.setElem v n a).c = s.c := State.setRegs_c _ _ _
@[simp] theorem State.setElem_z (v : FieldView) (n : Nat) (a : Elem) : (s.setElem v n a).z = s.z := State.setRegs_z _ _ _
@[simp] theorem State.setElem_l (v : FieldView) (n : Nat) (a : Elem) : (s.setElem v n a).l = s.l := State.setRegs_l _ _ _
@[simp] theorem State.setElem_t (v : FieldView) (n : Nat) (a : Elem) : (s.setElem v n a).t = s.t := State.setRegs_t _ _ _
@[simp] theorem State.setElem_pc (v : FieldView) (n : Nat) (a : Elem) : (s.setElem v n a).pc = s.pc := State.setRegs_pc _ _ _
@[simp] theorem State.setElem_run (v : FieldView) (n : Nat) (a : Elem) : (s.setElem v n a).run = s.run := State.setRegs_run _ _ _
@[simp] theorem State.setElem_err (v : FieldView) (n : Nat) (a : Elem) : (s.setElem v n a).err = s.err := State.setRegs_err _ _ _
@[simp] theorem State.setElem_epc (v : FieldView) (n : Nat) (a : Elem) : (s.setElem v n a).epc = s.epc := State.setRegs_epc _ _ _
@[simp] theorem State.setElem_einfo (v : FieldView) (n : Nat) (a : Elem) : (s.setElem v n a).einfo = s.einfo := State.setRegs_einfo _ _ _
@[simp] theorem State.setElem_wnafw (v : FieldView) (n : Nat) (a : Elem) : (s.setElem v n a).wnafw = s.wnafw := State.setRegs_wnafw _ _ _
@[simp] theorem State.setElem_ie (v : FieldView) (n : Nat) (a : Elem) : (s.setElem v n a).ie = s.ie := State.setRegs_ie _ _ _
@[simp] theorem State.setElem_ctx (v : FieldView) (n : Nat) (a : Elem) : (s.setElem v n a).ctx = s.ctx := State.setRegs_ctx _ _ _
@[simp] theorem State.setElem_twr (v : FieldView) (n : Nat) (a : Elem) : (s.setElem v n a).twr = s.twr := State.setRegs_twr _ _ _
@[simp] theorem State.setElem_crv (v : FieldView) (n : Nat) (a : Elem) : (s.setElem v n a).crv = s.crv := State.setRegs_crv _ _ _
@[simp] theorem State.setElem_prg (v : FieldView) (n : Nat) (a : Elem) : (s.setElem v n a).prg = s.prg := State.setRegs_prg _ _ _
@[simp] theorem State.setElem_pre (v : FieldView) (n : Nat) (a : Elem) : (s.setElem v n a).pre = s.pre := State.setRegs_pre _ _ _
@[simp] theorem State.setElem_cm (v : FieldView) (n : Nat) (a : Elem) : (s.setElem v n a).cm = s.cm := State.setRegs_cm _ _ _
@[simp] theorem State.setElem_dm (v : FieldView) (n : Nat) (a : Elem) : (s.setElem v n a).dm = s.dm := State.setRegs_dm _ _ _
@[simp] theorem State.setElem_fresh (v : FieldView) (n : Nat) (a : Elem) : (s.setElem v n a).fresh = s.fresh := State.setRegs_fresh _ _ _

@[simp] theorem State.setPoint_par (v : FieldView) (n : Nat) (p : JPoint) : (s.setPoint v n p).par = s.par := by
  simp [State.setPoint]
@[simp] theorem State.setPoint_acc (v : FieldView) (n : Nat) (p : JPoint) : (s.setPoint v n p).acc = s.acc := by
  simp [State.setPoint]
@[simp] theorem State.setPoint_c (v : FieldView) (n : Nat) (p : JPoint) : (s.setPoint v n p).c = s.c := by
  simp [State.setPoint]
@[simp] theorem State.setPoint_z (v : FieldView) (n : Nat) (p : JPoint) : (s.setPoint v n p).z = s.z := by
  simp [State.setPoint]
@[simp] theorem State.setPoint_l (v : FieldView) (n : Nat) (p : JPoint) : (s.setPoint v n p).l = s.l := by
  simp [State.setPoint]
@[simp] theorem State.setPoint_t (v : FieldView) (n : Nat) (p : JPoint) : (s.setPoint v n p).t = s.t := by
  simp [State.setPoint]
@[simp] theorem State.setPoint_pc (v : FieldView) (n : Nat) (p : JPoint) : (s.setPoint v n p).pc = s.pc := by
  simp [State.setPoint]
@[simp] theorem State.setPoint_run (v : FieldView) (n : Nat) (p : JPoint) : (s.setPoint v n p).run = s.run := by
  simp [State.setPoint]
@[simp] theorem State.setPoint_err (v : FieldView) (n : Nat) (p : JPoint) : (s.setPoint v n p).err = s.err := by
  simp [State.setPoint]
@[simp] theorem State.setPoint_epc (v : FieldView) (n : Nat) (p : JPoint) : (s.setPoint v n p).epc = s.epc := by
  simp [State.setPoint]
@[simp] theorem State.setPoint_einfo (v : FieldView) (n : Nat) (p : JPoint) : (s.setPoint v n p).einfo = s.einfo := by
  simp [State.setPoint]
@[simp] theorem State.setPoint_wnafw (v : FieldView) (n : Nat) (p : JPoint) : (s.setPoint v n p).wnafw = s.wnafw := by
  simp [State.setPoint]
@[simp] theorem State.setPoint_ie (v : FieldView) (n : Nat) (p : JPoint) : (s.setPoint v n p).ie = s.ie := by
  simp [State.setPoint]
@[simp] theorem State.setPoint_ctx (v : FieldView) (n : Nat) (p : JPoint) : (s.setPoint v n p).ctx = s.ctx := by
  simp [State.setPoint]
@[simp] theorem State.setPoint_twr (v : FieldView) (n : Nat) (p : JPoint) : (s.setPoint v n p).twr = s.twr := by
  simp [State.setPoint]
@[simp] theorem State.setPoint_crv (v : FieldView) (n : Nat) (p : JPoint) : (s.setPoint v n p).crv = s.crv := by
  simp [State.setPoint]
@[simp] theorem State.setPoint_prg (v : FieldView) (n : Nat) (p : JPoint) : (s.setPoint v n p).prg = s.prg := by
  simp [State.setPoint]
@[simp] theorem State.setPoint_pre (v : FieldView) (n : Nat) (p : JPoint) : (s.setPoint v n p).pre = s.pre := by
  simp [State.setPoint]
@[simp] theorem State.setPoint_cm (v : FieldView) (n : Nat) (p : JPoint) : (s.setPoint v n p).cm = s.cm := by
  simp [State.setPoint]
@[simp] theorem State.setPoint_dm (v : FieldView) (n : Nat) (p : JPoint) : (s.setPoint v n p).dm = s.dm := by
  simp [State.setPoint]
@[simp] theorem State.setPoint_fresh (v : FieldView) (n : Nat) (p : JPoint) : (s.setPoint v n p).fresh = s.fresh := by
  simp [State.setPoint]
@[simp] theorem State.setPair_par (v : FieldView) (n : Nat) (p : Elem × Elem) : (s.setPair v n p).par = s.par := by
  simp [State.setPair]
@[simp] theorem State.setPair_acc (v : FieldView) (n : Nat) (p : Elem × Elem) : (s.setPair v n p).acc = s.acc := by
  simp [State.setPair]
@[simp] theorem State.setPair_c (v : FieldView) (n : Nat) (p : Elem × Elem) : (s.setPair v n p).c = s.c := by
  simp [State.setPair]
@[simp] theorem State.setPair_z (v : FieldView) (n : Nat) (p : Elem × Elem) : (s.setPair v n p).z = s.z := by
  simp [State.setPair]
@[simp] theorem State.setPair_l (v : FieldView) (n : Nat) (p : Elem × Elem) : (s.setPair v n p).l = s.l := by
  simp [State.setPair]
@[simp] theorem State.setPair_t (v : FieldView) (n : Nat) (p : Elem × Elem) : (s.setPair v n p).t = s.t := by
  simp [State.setPair]
@[simp] theorem State.setPair_pc (v : FieldView) (n : Nat) (p : Elem × Elem) : (s.setPair v n p).pc = s.pc := by
  simp [State.setPair]
@[simp] theorem State.setPair_run (v : FieldView) (n : Nat) (p : Elem × Elem) : (s.setPair v n p).run = s.run := by
  simp [State.setPair]
@[simp] theorem State.setPair_err (v : FieldView) (n : Nat) (p : Elem × Elem) : (s.setPair v n p).err = s.err := by
  simp [State.setPair]
@[simp] theorem State.setPair_epc (v : FieldView) (n : Nat) (p : Elem × Elem) : (s.setPair v n p).epc = s.epc := by
  simp [State.setPair]
@[simp] theorem State.setPair_einfo (v : FieldView) (n : Nat) (p : Elem × Elem) : (s.setPair v n p).einfo = s.einfo := by
  simp [State.setPair]
@[simp] theorem State.setPair_wnafw (v : FieldView) (n : Nat) (p : Elem × Elem) : (s.setPair v n p).wnafw = s.wnafw := by
  simp [State.setPair]
@[simp] theorem State.setPair_ie (v : FieldView) (n : Nat) (p : Elem × Elem) : (s.setPair v n p).ie = s.ie := by
  simp [State.setPair]
@[simp] theorem State.setPair_ctx (v : FieldView) (n : Nat) (p : Elem × Elem) : (s.setPair v n p).ctx = s.ctx := by
  simp [State.setPair]
@[simp] theorem State.setPair_twr (v : FieldView) (n : Nat) (p : Elem × Elem) : (s.setPair v n p).twr = s.twr := by
  simp [State.setPair]
@[simp] theorem State.setPair_crv (v : FieldView) (n : Nat) (p : Elem × Elem) : (s.setPair v n p).crv = s.crv := by
  simp [State.setPair]
@[simp] theorem State.setPair_prg (v : FieldView) (n : Nat) (p : Elem × Elem) : (s.setPair v n p).prg = s.prg := by
  simp [State.setPair]
@[simp] theorem State.setPair_pre (v : FieldView) (n : Nat) (p : Elem × Elem) : (s.setPair v n p).pre = s.pre := by
  simp [State.setPair]
@[simp] theorem State.setPair_cm (v : FieldView) (n : Nat) (p : Elem × Elem) : (s.setPair v n p).cm = s.cm := by
  simp [State.setPair]
@[simp] theorem State.setPair_dm (v : FieldView) (n : Nat) (p : Elem × Elem) : (s.setPair v n p).dm = s.dm := by
  simp [State.setPair]
@[simp] theorem State.setPair_fresh (v : FieldView) (n : Nat) (p : Elem × Elem) : (s.setPair v n p).fresh = s.fresh := by
  simp [State.setPair]
@[simp] theorem State.setElems_par (v : FieldView) (n : Nat) (es : List Elem) : (s.setElems v n es).par = s.par := by
  induction es generalizing s n with
  | nil => rfl
  | cons a rest ih => simp [State.setElems, ih]
@[simp] theorem State.setElems_acc (v : FieldView) (n : Nat) (es : List Elem) : (s.setElems v n es).acc = s.acc := by
  induction es generalizing s n with
  | nil => rfl
  | cons a rest ih => simp [State.setElems, ih]
@[simp] theorem State.setElems_c (v : FieldView) (n : Nat) (es : List Elem) : (s.setElems v n es).c = s.c := by
  induction es generalizing s n with
  | nil => rfl
  | cons a rest ih => simp [State.setElems, ih]
@[simp] theorem State.setElems_z (v : FieldView) (n : Nat) (es : List Elem) : (s.setElems v n es).z = s.z := by
  induction es generalizing s n with
  | nil => rfl
  | cons a rest ih => simp [State.setElems, ih]
@[simp] theorem State.setElems_l (v : FieldView) (n : Nat) (es : List Elem) : (s.setElems v n es).l = s.l := by
  induction es generalizing s n with
  | nil => rfl
  | cons a rest ih => simp [State.setElems, ih]
@[simp] theorem State.setElems_t (v : FieldView) (n : Nat) (es : List Elem) : (s.setElems v n es).t = s.t := by
  induction es generalizing s n with
  | nil => rfl
  | cons a rest ih => simp [State.setElems, ih]
@[simp] theorem State.setElems_pc (v : FieldView) (n : Nat) (es : List Elem) : (s.setElems v n es).pc = s.pc := by
  induction es generalizing s n with
  | nil => rfl
  | cons a rest ih => simp [State.setElems, ih]
@[simp] theorem State.setElems_run (v : FieldView) (n : Nat) (es : List Elem) : (s.setElems v n es).run = s.run := by
  induction es generalizing s n with
  | nil => rfl
  | cons a rest ih => simp [State.setElems, ih]
@[simp] theorem State.setElems_err (v : FieldView) (n : Nat) (es : List Elem) : (s.setElems v n es).err = s.err := by
  induction es generalizing s n with
  | nil => rfl
  | cons a rest ih => simp [State.setElems, ih]
@[simp] theorem State.setElems_epc (v : FieldView) (n : Nat) (es : List Elem) : (s.setElems v n es).epc = s.epc := by
  induction es generalizing s n with
  | nil => rfl
  | cons a rest ih => simp [State.setElems, ih]
@[simp] theorem State.setElems_einfo (v : FieldView) (n : Nat) (es : List Elem) : (s.setElems v n es).einfo = s.einfo := by
  induction es generalizing s n with
  | nil => rfl
  | cons a rest ih => simp [State.setElems, ih]
@[simp] theorem State.setElems_wnafw (v : FieldView) (n : Nat) (es : List Elem) : (s.setElems v n es).wnafw = s.wnafw := by
  induction es generalizing s n with
  | nil => rfl
  | cons a rest ih => simp [State.setElems, ih]
@[simp] theorem State.setElems_ie (v : FieldView) (n : Nat) (es : List Elem) : (s.setElems v n es).ie = s.ie := by
  induction es generalizing s n with
  | nil => rfl
  | cons a rest ih => simp [State.setElems, ih]
@[simp] theorem State.setElems_ctx (v : FieldView) (n : Nat) (es : List Elem) : (s.setElems v n es).ctx = s.ctx := by
  induction es generalizing s n with
  | nil => rfl
  | cons a rest ih => simp [State.setElems, ih]
@[simp] theorem State.setElems_twr (v : FieldView) (n : Nat) (es : List Elem) : (s.setElems v n es).twr = s.twr := by
  induction es generalizing s n with
  | nil => rfl
  | cons a rest ih => simp [State.setElems, ih]
@[simp] theorem State.setElems_crv (v : FieldView) (n : Nat) (es : List Elem) : (s.setElems v n es).crv = s.crv := by
  induction es generalizing s n with
  | nil => rfl
  | cons a rest ih => simp [State.setElems, ih]
@[simp] theorem State.setElems_prg (v : FieldView) (n : Nat) (es : List Elem) : (s.setElems v n es).prg = s.prg := by
  induction es generalizing s n with
  | nil => rfl
  | cons a rest ih => simp [State.setElems, ih]
@[simp] theorem State.setElems_pre (v : FieldView) (n : Nat) (es : List Elem) : (s.setElems v n es).pre = s.pre := by
  induction es generalizing s n with
  | nil => rfl
  | cons a rest ih => simp [State.setElems, ih]
@[simp] theorem State.setElems_cm (v : FieldView) (n : Nat) (es : List Elem) : (s.setElems v n es).cm = s.cm := by
  induction es generalizing s n with
  | nil => rfl
  | cons a rest ih => simp [State.setElems, ih]
@[simp] theorem State.setElems_dm (v : FieldView) (n : Nat) (es : List Elem) : (s.setElems v n es).dm = s.dm := by
  induction es generalizing s n with
  | nil => rfl
  | cons a rest ih => simp [State.setElems, ih]
@[simp] theorem State.setElems_fresh (v : FieldView) (n : Nat) (es : List Elem) : (s.setElems v n es).fresh = s.fresh := by
  induction es generalizing s n with
  | nil => rfl
  | cons a rest ih => simp [State.setElems, ih]

/-! ### Reads after writes -/

theorem State.regAt_of_x {s t : State} (h : t.x = s.x) (n : Nat) : t.regAt n = s.regAt n := by
  simp only [State.regAt, h]

/-- A register reads what was written to it, and every other register what it held. -/
theorem State.regAt_setReg (n v : Nat) (g : Tag) (k : Nat) :
    (s.setReg n v g).regAt k = if k = n ∧ k < 64 then { val := v % 2 ^ s.par.bits, tag := g } else s.regAt k := by
  unfold State.regAt
  by_cases hk : k < 64
  · by_cases hn : k = n
    · subst hn; simp [hk]
    · simp [hk, hn, Ne.symm hn]
  · simp [hk]

theorem State.regAt_setRaw (r : RegIx) (v k : Nat) :
    (s.setRaw r v).regAt k = if k = r.toNat then { val := v % 2 ^ s.par.bits, tag := .raw } else s.regAt k := by
  have h64 : r.toNat < 64 := r.isLt
  unfold State.setRaw
  rw [State.regAt_setReg]
  by_cases hk : k = r.toNat
  · simp [hk, h64]
  · simp [hk]

/-- A register inside a written range reads its entry of the list, every other register what it held. -/
theorem State.regAt_setRegs (rs : List Reg) (n k : Nat) :
    (s.setRegs n rs).regAt k =
      if n ≤ k ∧ k < n + rs.length ∧ k < 64 then
        { val := (rs.getD (k - n) { val := 0, tag := .raw }).val % 2 ^ s.par.bits
          tag := (rs.getD (k - n) { val := 0, tag := .raw }).tag }
      else s.regAt k := by
  induction rs generalizing s n with
  | nil =>
    have : ¬(n ≤ k ∧ k < n + ([] : List Reg).length ∧ k < 64) := by simp; omega
    rw [if_neg this]; rfl
  | cons r rest ih =>
    show ((s.setReg n r.val r.tag).setRegs (n + 1) rest).regAt k = _
    rw [ih, State.regAt_setReg]
    simp only [State.setReg_par, List.length_cons]
    by_cases h1 : k = n
    · subst h1
      by_cases h2 : k < 64 <;> simp [h2]
    · by_cases h2 : n + 1 ≤ k
      · have hs : k - n = (k - (n + 1)) + 1 := by omega
        by_cases h3 : k < n + 1 + rest.length ∧ k < 64
        · have h4 : n ≤ k ∧ k < n + (rest.length + 1) ∧ k < 64 := by omega
          rw [if_pos ⟨h2, h3⟩, if_pos h4, hs]; simp
        · have h4 : ¬(n ≤ k ∧ k < n + (rest.length + 1) ∧ k < 64) := by omega
          have h5 : ¬(n + 1 ≤ k ∧ k < n + 1 + rest.length ∧ k < 64) := by omega
          rw [if_neg h5, if_neg h4, if_neg (by tauto)]
      · have h4 : ¬(n ≤ k ∧ k < n + (rest.length + 1) ∧ k < 64) := by omega
        have h5 : ¬(n + 1 ≤ k ∧ k < n + 1 + rest.length ∧ k < 64) := by omega
        rw [if_neg h5, if_neg h4, if_neg (by tauto)]

theorem State.regAt_out {n : Nat} (h : 64 ≤ n) : s.regAt n = { val := 0, tag := .raw } := by
  simp [State.regAt, Nat.not_lt.mpr h]

@[simp] theorem State.regRange_length (n count : Nat) : (s.regRange n count).length = count := by
  simp [State.regRange]

theorem State.regRange_getD (n count j : Nat) (h : j < count) (d : Reg) :
    (s.regRange n count).getD j d = s.regAt (n + j) := by
  simp [State.regRange, List.getD, h]

/-! ### Reads of tables after table writes -/

theorem State.ctxAt_setCtx (c k : CtxIx) (e : Ctx) :
    (s.setCtx c e).ctxAt k = if k = c then some e else s.ctxAt k := by
  by_cases h : k = c
  · subst h; simp [State.ctxAt]
  · have h' : ¬(c.toNat = k.toNat) := fun he => h (BitVec.eq_of_toNat_eq he.symm)
    simp [State.ctxAt, h, h']

theorem State.twrAt_setTwr (c k : TwrIx) (e : Twr) :
    (s.setTwr c e).twrAt k = if k = c then some e else s.twrAt k := by
  by_cases h : k = c
  · subst h; simp [State.twrAt]
  · have h' : ¬(c.toNat = k.toNat) := fun he => h (BitVec.eq_of_toNat_eq he.symm)
    simp [State.twrAt, h, h']

theorem State.crvAt_setCrv (c k : CrvIx) (e : Crv) :
    (s.setCrv c e).crvAt k = if k = c then some e else s.crvAt k := by
  by_cases h : k = c
  · subst h; simp [State.crvAt]
  · have h' : ¬(c.toNat = k.toNat) := fun he => h (BitVec.eq_of_toNat_eq he.symm)
    simp [State.crvAt, h, h']

theorem State.preAt_setPre (c k : SlotIx) (e : Pre) :
    (s.setPre c e).preAt k = if k = c then some e else s.preAt k := by
  by_cases h : k = c
  · subst h; simp [State.preAt]
  · have h' : ¬(c.toNat = k.toNat) := fun he => h (BitVec.eq_of_toNat_eq he.symm)
    simp [State.preAt, h, h']

end Sys2Proof.Machine
end

