-- ==== Sys2Proof/Laws/Ops.lean ====
section
/-! SUPPORT. Everything the shared operations can do: checks, the end of a command, the two memories. -/

namespace Sys2Proof.Machine

/-! ### Checks -/

@[simp] theorem raiseIf_true (k : FaultKind) : raiseIf true k = .error (.kind k) := rfl

@[simp] theorem raiseIf_false (k : FaultKind) : raiseIf false k = .ok () := rfl

@[simp] theorem orRaise_some {α : Type} (a : α) (k : FaultKind) : orRaise (some a) k = .ok a := rfl

@[simp] theorem orRaise_none {α : Type} (k : FaultKind) : orRaise (none : Option α) k = .error (.kind k) := rfl

@[simp] theorem Attempt.ok_bind {α β : Type} (a : α) (f : α → Attempt β) : ((.ok a : Attempt α) >>= f) = f a := rfl

@[simp] theorem Attempt.error_bind {α β : Type} (t : Trap) (f : α → Attempt β) :
    ((.error t : Attempt α) >>= f) = .error t := rfl

/-- A check passes exactly when its condition is false. -/
theorem raiseIf_eq_ok {bad : Bool} {k : FaultKind} {u : Unit} : raiseIf bad k = .ok u ↔ bad = false := by
  cases bad <;> simp

theorem orRaise_eq_ok {α : Type} {v : Option α} {k : FaultKind} {a : α} : orRaise v k = .ok a ↔ v = some a := by
  cases v <;> simp

/-- A sequence of two parts succeeds exactly when both do. -/
theorem Attempt.bind_eq_ok {α β : Type} {x : Attempt α} {f : α → Attempt β} {b : β} :
    (x >>= f) = .ok b ↔ ∃ a, x = .ok a ∧ f a = .ok b := by
  cases x with
  | error t => simp
  | ok a => simp

/-- A check in front of the rest of a command. -/
theorem raiseIf_bind_eq_ok {β : Type} {bad : Bool} {k : FaultKind} {f : Unit → Attempt β} {b : β} :
    (raiseIf bad k >>= f) = .ok b ↔ bad = false ∧ f () = .ok b := by
  cases bad <;> simp

/-! ### The end of a command -/

@[simp] theorem conclude_ok (i : Instr) (s s' : State) : conclude i s (.ok s') = .next { s' with pc := s.pc + 1#19 } := rfl

@[simp] theorem conclude_error (i : Instr) (s : State) (t : Trap) :
    conclude i s (.error t) = .next (s.takeTrap (encode i) t) := rfl

/-- All that the end of a command can answer: the command's own state with PC advanced, or fault entry. -/
theorem conclude_next {i : Instr} {s : State} {a : Attempt State} {t : State} (h : conclude i s a = .next t) :
    (∃ s', a = .ok s' ∧ t = { s' with pc := s.pc + 1#19 }) ∨
    (∃ tr, a = .error tr ∧ t = s.takeTrap (encode i) tr) := by
  cases a with
  | ok s' => exact .inl ⟨s', rfl, by simpa using h.symm⟩
  | error tr => exact .inr ⟨tr, rfl, by simpa using h.symm⟩

/-- The end of a command always answers a next state. -/
theorem conclude_answers (i : Instr) (s : State) (a : Attempt State) : ∃ t, conclude i s a = .next t := by
  cases a with
  | ok s' => exact ⟨_, rfl⟩
  | error tr => exact ⟨_, rfl⟩

/-- Fault entry records a kind and its information and stops the engine; nothing else changes (R356). -/
theorem State.takeTrap_eq (s : State) (w : Word) (tr : Trap) :
    ∃ k info, s.takeTrap w tr = { s with err := FaultKind.code k, epc := s.pc, einfo := info, run := .fault } := by
  cases tr with
  | kind k => exact ⟨k, w, rfl⟩
  | data a => exact ⟨.addressFault, BitVec.ofNat 32 a, rfl⟩

theorem FaultKind.code_ne_zero (k : FaultKind) : k.code ≠ 0#8 := by cases k <;> decide

/-! ### Memory as a list of written cells -/

section
variable {α : Type}

theorem Memory.lookup_store (m : List (Nat × α)) (a : Nat) (v : α) (b : Nat) (h : Memory.wf m = true) :
    Memory.lookup (Memory.store m a v) b = if b = a then some v else Memory.lookup m b := by
  induction m with
  | nil => simp [Memory.store, Memory.lookup]
  | cons e rest ih =>
    obtain ⟨c, u⟩ := e
    simp only [Memory.wf, Bool.and_eq_true, List.all_eq_true, decide_eq_true_eq] at h
    simp only [Memory.store]
    split
    · simp only [Memory.lookup]
    · split
      · subst_vars
        simp only [Memory.lookup]
        split <;> simp_all
      · rename_i h1 h2
        simp only [Memory.lookup, ih h.2]
        by_cases hb : b = c
        · subst hb
          simp [Ne.symm h2]
        · simp [hb]

theorem Memory.mem_store {m : List (Nat × α)} {a : Nat} {v : α} {e : Nat × α} (h : e ∈ Memory.store m a v) :
    e.1 = a ∨ e ∈ m := by
  induction m with
  | nil => simp only [Memory.store, List.mem_singleton] at h; left; rw [h]
  | cons c rest ih =>
    obtain ⟨c, u⟩ := c
    simp only [Memory.store] at h
    split at h
    · rcases List.mem_cons.mp h with h | h
      · left; rw [h]
      · right; exact h
    · split at h
      · rcases List.mem_cons.mp h with h | h
        · left; rw [h]
        · right; exact List.mem_cons_of_mem _ h
      · rcases List.mem_cons.mp h with h | h
        · right; rw [h]; exact List.mem_cons_self
        · rcases ih h with h | h
          · left; exact h
          · right; exact List.mem_cons_of_mem _ h

/-- Writing one cell keeps the canonical form. -/
theorem Memory.store_wf (m : List (Nat × α)) (a : Nat) (v : α) (h : Memory.wf m = true) :
    Memory.wf (Memory.store m a v) = true := by
  induction m with
  | nil => rfl
  | cons e rest ih =>
    obtain ⟨c, u⟩ := e
    have h' := h
    simp only [Memory.wf, Bool.and_eq_true, List.all_eq_true, decide_eq_true_eq] at h
    simp only [Memory.store]
    split
    · rename_i hlt
      simp only [Memory.wf, Bool.and_eq_true, List.all_eq_true, decide_eq_true_eq]
      refine ⟨fun x hx => ?_, h.1, h.2⟩
      rcases List.mem_cons.mp hx with hx | hx
      · subst hx; exact hlt
      · exact Nat.lt_trans hlt (h.1 x hx)
    · split
      · subst_vars
        simp only [Memory.wf, Bool.and_eq_true, List.all_eq_true, decide_eq_true_eq]
        exact h
      · rename_i h1 h2
        simp only [Memory.wf, Bool.and_eq_true, List.all_eq_true, decide_eq_true_eq]
        refine ⟨fun x hx => ?_, ih h.2⟩
        rcases Memory.mem_store hx with hx | hx
        · omega
        · exact h.1 x hx

theorem Memory.storeAll_wf (m : List (Nat × α)) (a : Nat) (vs : List α) (h : Memory.wf m = true) :
    Memory.wf (Memory.storeAll m a vs) = true := by
  induction vs generalizing m a with
  | nil => exact h
  | cons v rest ih => exact ih _ _ (Memory.store_wf m a v h)

theorem Memory.lookup_storeAll (m : List (Nat × α)) (a : Nat) (vs : List α) (b : Nat) (h : Memory.wf m = true) :
    Memory.lookup (Memory.storeAll m a vs) b =
      if a ≤ b ∧ b < a + vs.length then vs[b - a]? else Memory.lookup m b := by
  induction vs generalizing m a with
  | nil =>
    have : ¬(a ≤ b ∧ b < a + ([] : List α).length) := by simp
    rw [if_neg this]; rfl
  | cons v rest ih =>
    simp only [Memory.storeAll, List.length_cons]
    rw [ih _ _ (Memory.store_wf m a v h), Memory.lookup_store m a v b h]
    by_cases h1 : b = a
    · subst h1; simp
    · by_cases h2 : a + 1 ≤ b ∧ b < a + 1 + rest.length
      · have h3 : a ≤ b ∧ b < a + (rest.length + 1) := by omega
        have h4 : b - a = (b - (a + 1)) + 1 := by omega
        rw [if_pos h2, if_pos h3, h4, List.getElem?_cons_succ]
      · have h3 : ¬(a ≤ b ∧ b < a + (rest.length + 1)) := by omega
        rw [if_neg h2, if_neg h3, if_neg h1]

/-- An address below every listed one is not listed. -/
theorem Memory.lookup_none {m : List (Nat × α)} {a : Nat} (h : ∀ e ∈ m, a < e.1) : Memory.lookup m a = none := by
  induction m with
  | nil => rfl
  | cons e rest ih =>
    obtain ⟨c, u⟩ := e
    have hc : a < c := h _ List.mem_cons_self
    simp only [Memory.lookup, if_neg (Nat.ne_of_lt hc)]
    exact ih fun e he => h e (List.mem_cons_of_mem _ he)

/-- Equal memories are equal lists: the canonical form is determined by what is read. -/
theorem Memory.ext_of_wf (m m' : List (Nat × α)) (h : Memory.wf m = true) (h' : Memory.wf m' = true)
    (heq : ∀ a, Memory.lookup m a = Memory.lookup m' a) : m = m' := by
  induction m generalizing m' with
  | nil =>
    cases m' with
    | nil => rfl
    | cons e rest => have := heq e.1; simp [Memory.lookup] at this
  | cons e rest ih =>
    obtain ⟨c, u⟩ := e
    simp only [Memory.wf, Bool.and_eq_true, List.all_eq_true, decide_eq_true_eq] at h
    cases m' with
    | nil => have := heq c; simp [Memory.lookup] at this
    | cons e' rest' =>
      obtain ⟨c', u'⟩ := e'
      simp only [Memory.wf, Bool.and_eq_true, List.all_eq_true, decide_eq_true_eq] at h'
      have hcc : c = c' := by
        rcases Nat.lt_trichotomy c c' with hlt | he | hgt
        · have h1 := heq c
          simp only [Memory.lookup, if_true, if_neg (Nat.ne_of_lt hlt)] at h1
          rw [Memory.lookup_none fun e he => Nat.lt_trans hlt (h'.1 e he)] at h1
          cases h1
        · exact he
        · have h1 := heq c'
          simp only [Memory.lookup, if_true, if_neg (Nat.ne_of_lt hgt)] at h1
          rw [Memory.lookup_none fun e he => Nat.lt_trans hgt (h.1 e he)] at h1
          cases h1
      subst hcc
      have hu : u = u' := by have := heq c; simpa [Memory.lookup] using this
      subst hu
      congr 1
      refine ih rest' h.2 h'.2 fun a => ?_
      by_cases ha : a = c
      · subst ha; rw [Memory.lookup_none h.1, Memory.lookup_none h'.1]
      · have := heq a; simpa [Memory.lookup, ha] using this

end

/-! ### Data memory -/

/-- A byte reads what was written to it, and every other byte what it held. -/
theorem State.byteAt_putBytes (s : State) (addr : Nat) (bs : List Byte) (a : Nat) (h : Memory.wf s.dm = true) :
    (s.putBytes addr bs).byteAt a =
      if addr ≤ a ∧ a < addr + bs.length then bs.getD (a - addr) 0#8 else s.byteAt a := by
  unfold State.byteAt
  rw [State.putBytes_dm, Memory.lookup_storeAll _ _ _ _ h]
  split
  · rename_i hin
    have hlt : a - addr < bs.length := by omega
    simp [List.getD, List.getElem?_eq_getElem hlt]
  · rfl

@[simp] theorem State.bytesAt_length (s : State) (a n : Nat) : (s.bytesAt a n).length = n := by simp [State.bytesAt]

/-- A read succeeds exactly on an admitted range, and gives its bytes (R73). -/
theorem State.readMem_eq_ok {s : State} {a n : Nat} {bs : List Byte} :
    s.readMem a n = .ok bs ↔ s.admits a n = true ∧ bs = s.bytesAt a n := by
  unfold State.readMem
  cases s.admits a n <;> simp [eq_comm]

/-- A write succeeds exactly on an admitted range (R73). -/
theorem State.writeMem_eq_ok {s t : State} {a : Nat} {bs : List Byte} :
    s.writeMem a bs = .ok t ↔ s.admits a bs.length = true ∧ t = s.putBytes a bs := by
  unfold State.writeMem
  cases s.admits a bs.length <;> simp [eq_comm]

theorem State.readMem_of_admits {s : State} {a n : Nat} (h : s.admits a n = true) :
    s.readMem a n = .ok (s.bytesAt a n) := by simp [State.readMem, h]

theorem State.writeMem_of_admits {s : State} {a : Nat} {bs : List Byte} (h : s.admits a bs.length = true) :
    s.writeMem a bs = .ok (s.putBytes a bs) := by simp [State.writeMem, h]

@[simp] theorem leBytes_length (v n : Nat) : (leBytes v n).length = n := by simp [leBytes]

@[simp] theorem beBytes_length (v n : Nat) : (beBytes v n).length = n := by simp [beBytes]

/-- The bytes of a value, least significant first, spell it back modulo its width (R74). -/
theorem leNat_leBytes (v n : Nat) : leNat (leBytes v n) = v % 2 ^ (8 * n) := by
  induction n generalizing v with
  | zero => simp [leBytes, leNat, Nat.mod_one]
  | succ n ih =>
    have hl : leBytes v (n + 1) = BitVec.ofNat 8 v :: leBytes (v / 256) n := by
      simp only [leBytes, List.range_succ_eq_map, List.map_cons, List.map_map]
      congr 1
      · simp
      · apply List.map_congr_left
        intro j _
        simp only [Function.comp, Nat.div_div_eq_div_mul]
        rw [show 8 * (j + 1) = 8 + 8 * j by ring, Nat.pow_add]
    rw [hl, leNat, ih, BitVec.toNat_ofNat]
    rw [show 8 * (n + 1) = 8 + 8 * n by ring, Nat.pow_add, Nat.mod_mul]

/-- The encoded bytes of a value, most significant first, spell it back modulo their width (R226). -/
theorem beNat_beBytes (v n : Nat) : beNat (beBytes v n) = v % 2 ^ (8 * n) := by
  simp [beNat, beBytes, leNat_leBytes]

end Sys2Proof.Machine
end

