-- ==== Sys2Proof/Laws/Operands.lean ====
section
/-! SUPPORT. What the operand forms read, write and raise. -/

namespace Sys2Proof.Machine

variable {s : State} {f : FieldView}

/-! ### Fields, curves and the configuration depend on the tables only -/

theorem State.resolve_congr {s t : State} (hc : t.ctx = s.ctx) (ht : t.twr = s.twr) (n : Nat) (x : Tier) :
    t.resolve n x = s.resolve n x := by
  induction n generalizing x with
  | zero => rfl
  | succ n ih => cases x <;> simp [State.resolve, State.ctxAt, State.twrAt, hc, ht, ih]

theorem State.fieldOf_congr {s t : State} (hc : t.ctx = s.ctx) (ht : t.twr = s.twr) (x : Tier) :
    t.fieldOf x = s.fieldOf x := by
  cases x <;> simp [State.fieldOf, State.ctxAt, State.twrAt, hc, ht, State.resolve_congr hc ht]

theorem State.curveOf_congr {s t : State} (hc : t.ctx = s.ctx) (ht : t.twr = s.twr) (hv : t.crv = s.crv) (i : CrvIx) :
    t.curveOf i = s.curveOf i := by
  simp [State.curveOf, State.crvAt, hv, State.fieldOf_congr hc ht]

theorem State.pairingOf_congr {s t : State} (hc : t.ctx = s.ctx) (ht : t.twr = s.twr) (hv : t.crv = s.crv)
    (hp : t.prg = s.prg) : t.pairingOf = s.pairingOf := by
  simp [State.pairingOf, hp, State.curveOf_congr hc ht hv, State.fieldOf_congr hc ht]

/-- The root context of a field in use is valid and is the one its view carries. -/
theorem State.fieldOf_root {x : Tier} (h : s.fieldOf x = some f) : s.ctxAt f.root = some f.ctx := by
  cases x with
  | prime c =>
    simp only [State.fieldOf, Option.map_eq_some_iff] at h
    obtain ⟨e, he, rfl⟩ := h
    exact he
  | tower t =>
    simp only [State.fieldOf] at h
    split at h
    · cases h
    · split at h
      · cases h
      · rename_i cx hcx
        split at h
        · cases h
        · cases h; exact hcx

theorem State.fieldOf_prime {c : CtxIx} {e : Ctx} (h : s.ctxAt c = some e) : s.fieldOf (.prime c) = some (primeView c e) := by
  simp [State.fieldOf, h]

/-- Each check of an operand passes exactly on a valid entry. -/
theorem State.needCtx_eq_ok {c : CtxIx} {e : Ctx} : s.needCtx c = .ok e ↔ s.ctxAt c = some e := orRaise_eq_ok

theorem State.needField_eq_ok {x : Tier} : s.needField x = .ok f ↔ s.fieldOf x = some f := orRaise_eq_ok

theorem State.needTower_eq_ok {t : TwrIx} : s.needTower t = .ok f ↔ s.fieldOf (.tower t) = some f := orRaise_eq_ok

theorem State.needCurve_eq_ok {i : CrvIx} {v : CurveView} : s.needCurve i = .ok v ↔ s.curveOf i = some v := orRaise_eq_ok

theorem State.needPairing_eq_ok {v : PairingView} : s.needPairing = .ok v ↔ s.pairingOf = some v := orRaise_eq_ok

/-! ### Tags -/

theorem State.tagged_iff {n count : Nat} :
    s.tagged f n count = true ↔ ∀ j, j < count → (s.regAt (n + j)).tag = f.tag := by
  simp [State.tagged, State.regRange]

theorem State.needRawAt_eq_ok {n v : Nat} :
    s.needRawAt n = .ok v ↔ (s.regAt n).tag = .raw ∧ v = (s.regAt n).val := by
  unfold State.needRawAt
  by_cases h : (s.regAt n).tag = .raw <;> simp [h, eq_comm]

theorem State.needRaw_eq_ok {r : RegIx} {v : Nat} : s.needRaw r = .ok v ↔ s.tag r = .raw ∧ v = s.val r :=
  State.needRawAt_eq_ok

theorem State.needFp_eq_ok {r : RegIx} :
    s.needFp r = .ok f ↔ ∃ c e, s.tag r = .fp c ∧ s.ctxAt c = some e ∧ f = primeView c e := by
  unfold State.needFp
  cases h : s.tag r with
  | raw => simp
  | fp c =>
    cases hc : s.ctxAt c with
    | none => simp [hc]
    | some e => simp [hc, eq_comm]

theorem State.needSameTag_eq_ok {r : RegIx} {u : Unit} : s.needSameTag f r = .ok u ↔ s.tag r = f.tag := by
  simp [State.needSameTag, raiseIf_eq_ok]

theorem State.needElem_eq_ok {n : Nat} {a : Elem} :
    s.needElem f n = .ok a ↔ s.tagged f n f.k = true ∧ a = s.elemAt f n := by
  unfold State.needElem
  cases s.tagged f n f.k <;> simp [eq_comm]

theorem State.needPoint_eq_ok {n : Nat} {p : JPoint} :
    s.needPoint f n = .ok p ↔ s.tagged f n (3 * f.k) = true ∧ p = s.pointAt f n := by
  unfold State.needPoint
  cases s.tagged f n (3 * f.k) <;> simp [eq_comm]

theorem State.needPair_eq_ok {n : Nat} {p : Elem × Elem} :
    s.needPair f n = .ok p ↔ s.tagged f n (2 * f.k) = true ∧ p = s.pairAt f n := by
  unfold State.needPair
  cases s.tagged f n (2 * f.k) <;> simp [eq_comm]

theorem runsPast_eq_false {first count : Nat} : runsPast first count = false ↔ first + count ≤ 64 := by
  simp [runsPast]

/-! ### Elements -/

@[simp] theorem State.elemAt_length (n : Nat) : (s.elemAt f n).length = f.k := by simp [State.elemAt]

theorem State.elemAt_getD {n j : Nat} (h : j < f.k) : (s.elemAt f n).getD j 0 = s.coordAt f (n + j) := by
  simp [State.elemAt, List.getD, h]

/-- A register of a written element holds the stored form of its coordinate with the field's tag; every other register
holds what it held. -/
theorem State.regAt_setElem (n : Nat) (a : Elem) (k : Nat) :
    (s.setElem f n a).regAt k =
      if n ≤ k ∧ k < n + f.k ∧ k < 64 then { val := s.repOf f (a.getD (k - n) 0) % 2 ^ s.par.bits, tag := f.tag }
      else s.regAt k := by
  unfold State.setElem
  rw [State.regAt_setRegs]
  simp only [List.length_map, List.length_range]
  split
  · rename_i h
    have hlt : k - n < f.k := by omega
    simp [List.getD, hlt]
  · rfl

theorem State.regAt_setElem_of_out {n : Nat} {a : Elem} {k : Nat} (h : k < n ∨ n + f.k ≤ k) :
    (s.setElem f n a).regAt k = s.regAt k := by
  rw [State.regAt_setElem, if_neg (by omega)]

/-- A point write is three element writes side by side. -/
theorem State.regAt_setPoint_of_out {n : Nat} {p : JPoint} {k : Nat} (h : k < n ∨ n + 3 * f.k ≤ k) :
    (s.setPoint f n p).regAt k = s.regAt k := by
  unfold State.setPoint
  rw [State.regAt_setElem_of_out (by omega), State.regAt_setElem_of_out (by omega), State.regAt_setElem_of_out (by omega)]

theorem State.regAt_setPair_of_out {n : Nat} {p : Elem × Elem} {k : Nat} (h : k < n ∨ n + 2 * f.k ≤ k) :
    (s.setPair f n p).regAt k = s.regAt k := by
  unfold State.setPair
  rw [State.regAt_setElem_of_out (by omega), State.regAt_setElem_of_out (by omega)]

theorem State.regAt_setElems_of_out {n : Nat} {es : List Elem} {k : Nat} (h : k < n ∨ n + es.length * f.k ≤ k) :
    (s.setElems f n es).regAt k = s.regAt k := by
  induction es generalizing s n with
  | nil => rfl
  | cons a rest ih =>
    simp only [List.length_cons, Nat.add_mul, Nat.one_mul] at h
    simp only [State.setElems]
    rw [ih (by omega), State.regAt_setElem_of_out (by omega)]

/-- Reading an element back gives what was written, for a context in use and coordinates below p (R24, R241). -/
theorem State.elemAt_setElem {n : Nat} {a : Elem} (hadm : f.ctx.admitted) (hbits : f.ctx.m < 2 ^ s.par.bits)
    (hn : n + f.k ≤ 64) (hlen : a.length = f.k) (ha : ∀ v ∈ a, v < f.ctx.m) : (s.setElem f n a).elemAt f n = a := by
  apply List.ext_getElem
  · simp [hlen]
  · intro j h1 h2
    have hj : j < f.k := by simpa using h1
    have h3 : (s.setElem f n a).coordAt f (n + j) = a[j] := by
      unfold State.coordAt
      rw [State.regAt_setElem, if_pos (by omega)]
      simp only [State.setElem_par, State.repOf]
      have hg : a.getD (n + j - n) 0 = a[j] := by
        rw [Nat.add_sub_cancel_left]; simp [List.getD, h2]
      rw [hg, Nat.mod_eq_of_lt (Nat.lt_trans (Ctx.rep_lt (Ctx.admitted_pos hadm) _ _) hbits)]
      exact Ctx.logical_rep hadm (ha _ (List.getElem_mem h2))
    simpa [State.elemAt] using h3

end Sys2Proof.Machine
end

