-- ==== Sys2Proof/Laws/Invariant.lean ====
section
/-! SUPPORT. Which updates keep which part of a sound state. -/

namespace Sys2Proof.Machine

variable {s t : State}

/-! ### Registers -/

/-- Every register is sound. -/
def State.allRegs (s : State) : Prop := ∀ r : RegIx, s.regSound (s.regAt r.toNat) = true

theorem State.regSound_raw (v : Nat) : s.regSound { val := v % 2 ^ s.par.bits, tag := .raw } = true := by
  simp [State.regSound, Nat.mod_lt]

theorem State.regSound_congr (hp : t.par = s.par) (hc : t.ctx = s.ctx) (r : Reg) : t.regSound r = s.regSound r := by
  simp [State.regSound, hp, State.ctxAt, hc]

/-- Registers of a state that differs elsewhere only. -/
theorem State.allRegs_congr (hp : t.par = s.par) (hc : t.ctx = s.ctx) (hx : t.x = s.x) (h : s.allRegs) : t.allRegs := by
  intro r; rw [State.regSound_congr hp hc, State.regAt_of_x hx]; exact h r

theorem State.allRegs_setRegs {n : Nat} {rs : List Reg} (h : s.allRegs)
    (hrs : ∀ r ∈ rs, s.regSound { val := r.val % 2 ^ s.par.bits, tag := r.tag } = true) : (s.setRegs n rs).allRegs := by
  intro r
  rw [State.regSound_congr (State.setRegs_par s n rs) (State.setRegs_ctx s n rs), State.regAt_setRegs]
  split
  · rename_i hin
    have hlt : r.toNat - n < rs.length := by omega
    have := hrs _ (List.getElem_mem hlt)
    simpa [List.getD, hlt] using this
  · exact h r

theorem State.allRegs_setReg {n v : Nat} {g : Tag} (h : s.allRegs)
    (hv : s.regSound { val := v % 2 ^ s.par.bits, tag := g } = true) : (s.setReg n v g).allRegs := by
  have := State.allRegs_setRegs (n := n) (rs := [{ val := v, tag := g }]) h (by simpa using hv)
  exact this

theorem State.allRegs_setRaw {r : RegIx} {v : Nat} (h : s.allRegs) : (s.setRaw r v).allRegs :=
  State.allRegs_setReg h (State.regSound_raw v)

/-- A stored form of a field in use is sound (R25). -/
theorem State.regSound_rep {f : FieldView} (hroot : s.ctxAt f.root = some f.ctx) (hpos : 0 < f.ctx.m) (a : Nat) :
    s.regSound { val := s.repOf f a % 2 ^ s.par.bits, tag := f.tag } = true := by
  have h1 : s.repOf f a % 2 ^ s.par.bits < f.ctx.m :=
    Nat.lt_of_le_of_lt (Nat.mod_le _ _) (Ctx.rep_lt hpos _ _)
  simp [State.regSound, FieldView.tag, hroot, h1, Nat.mod_lt]

theorem State.allRegs_setFp {f : FieldView} {r : RegIx} {a : Nat} (h : s.allRegs) (hroot : s.ctxAt f.root = some f.ctx)
    (hpos : 0 < f.ctx.m) : (s.setFp f r a).allRegs :=
  State.allRegs_setReg h (State.regSound_rep hroot hpos a)

theorem State.allRegs_setElem {f : FieldView} {n : Nat} {a : Elem} (h : s.allRegs) (hroot : s.ctxAt f.root = some f.ctx)
    (hpos : 0 < f.ctx.m) : (s.setElem f n a).allRegs := by
  refine State.allRegs_setRegs h fun r hr => ?_
  simp only [List.mem_map] at hr
  obtain ⟨j, _, rfl⟩ := hr
  exact State.regSound_rep hroot hpos _

theorem State.ctxAt_congr (hc : t.ctx = s.ctx) (c : CtxIx) : t.ctxAt c = s.ctxAt c := by simp [State.ctxAt, hc]

theorem State.allRegs_setElems {f : FieldView} {n : Nat} {es : List Elem} (h : s.allRegs)
    (hroot : s.ctxAt f.root = some f.ctx) (hpos : 0 < f.ctx.m) : (s.setElems f n es).allRegs := by
  induction es generalizing s n with
  | nil => exact h
  | cons a rest ih =>
    refine ih (State.allRegs_setElem h hroot hpos) ?_
    rw [State.ctxAt_congr (State.setElem_ctx s f n a)]; exact hroot

theorem State.allRegs_setPair {f : FieldView} {n : Nat} {p : Elem × Elem} (h : s.allRegs)
    (hroot : s.ctxAt f.root = some f.ctx) (hpos : 0 < f.ctx.m) : (s.setPair f n p).allRegs :=
  State.allRegs_setElem (State.allRegs_setElem h hroot hpos)
    ((State.ctxAt_congr (State.setElem_ctx s f n _) _).trans hroot) hpos

theorem State.allRegs_setPoint {f : FieldView} {n : Nat} {p : JPoint} (h : s.allRegs)
    (hroot : s.ctxAt f.root = some f.ctx) (hpos : 0 < f.ctx.m) : (s.setPoint f n p).allRegs :=
  State.allRegs_setElem
    (State.allRegs_setElem (State.allRegs_setElem h hroot hpos)
      ((State.ctxAt_congr (State.setElem_ctx s f n _) _).trans hroot) hpos)
    ((State.ctxAt_congr (by simp) _).trans hroot) hpos

/-- The coordinates of registers tagged for a field in use are below p (R25). -/
theorem State.coordAt_lt {f : FieldView} {n : Nat} (h : s.allRegs) (hroot : s.ctxAt f.root = some f.ctx)
    (hpos : 0 < f.ctx.m) (hn : n < 64) (ht : (s.regAt n).tag = f.tag) : s.coordAt f n < f.ctx.m := by
  have hr := h (BitVec.ofNat 6 n)
  have hnn : (BitVec.ofNat 6 n).toNat = n := by simp; omega
  rw [hnn] at hr
  simp only [State.regSound, ht, FieldView.tag, hroot, Bool.and_eq_true, decide_eq_true_eq] at hr
  exact Ctx.logical_lt hpos hr.2

/-! ### Contexts -/

theorem Ctx.sound_admitted {par : Params} {e : Ctx} (h : e.sound par = true) : e.admitted := by
  simp only [Ctx.sound, Bool.and_eq_true, decide_eq_true_eq] at h
  obtain ⟨⟨h1, _⟩, _⟩ := h
  unfold Ctx.admitted
  unfold Ctx.strat Ctx.isMont at h1
  cases hr : e.red <;> simp [hr, strategyAdmits] at h1 ⊢ <;> exact h1

theorem Ctx.sound_lt {par : Params} {e : Ctx} (h : e.sound par = true) : e.m < 2 ^ par.bits := by
  simp only [Ctx.sound, Bool.and_eq_true, decide_eq_true_eq] at h
  exact h.1.2

/-- What CTXDEF writes is sound (R180). -/
theorem makeCtx_sound {par : Params} {strat : Strategy} {m : Nat} (h : strategyAdmits strat m = true)
    (hm : m < 2 ^ par.bits) : (makeCtx par strat m).sound par = true := by
  have hs : (makeCtx par strat m).strat = strat := by cases strat <;> rfl
  have hm' : (makeCtx par strat m).m = m := rfl
  simp [Ctx.sound, hs, hm', h, hm]

/-! ### Parts of a sound state -/

namespace State.Inv

theorem par (h : s.Inv) : s.par.valid = true := h.1
theorem regs (h : s.Inv) : s.allRegs := h.2.1
theorem acc (h : s.Inv) : s.acc < 2 ^ (2 * s.par.bits) := h.2.2.1
theorem pc (h : s.Inv) : s.pc.toNat ≤ 2 ^ 18 := h.2.2.2.1
theorem faultRegs (h : s.Inv) : s.faultRegsSound = true := h.2.2.2.2.1
theorem window (h : s.Inv) : s.windowSound = true := h.2.2.2.2.2.1
theorem ctx (h : s.Inv) : ∀ c, s.ctxEntrySound c = true := h.2.2.2.2.2.2.1
theorem twr (h : s.Inv) : ∀ t, s.towerLevelSound t = true := h.2.2.2.2.2.2.2.1
theorem crv (h : s.Inv) : ∀ i, s.curveEntrySound i = true := h.2.2.2.2.2.2.2.2.1
theorem prg (h : s.Inv) : s.pairingSound = true := h.2.2.2.2.2.2.2.2.2.1
theorem pre (h : s.Inv) : ∀ n, s.slotSound n = true := h.2.2.2.2.2.2.2.2.2.2.1
theorem cm (h : s.Inv) : memorySound s.par.cmWords s.cm = true := h.2.2.2.2.2.2.2.2.2.2.2.1
theorem dm (h : s.Inv) : memorySound s.par.dmBytes s.dm = true := h.2.2.2.2.2.2.2.2.2.2.2.2

end State.Inv

theorem State.Inv.ctx_sound (h : s.Inv) {c : CtxIx} {e : Ctx} (he : s.ctxAt c = some e) : e.sound s.par = true := by
  have := h.ctx c
  simpa [State.ctxEntrySound, he] using this

/-- The context of a field in use is sound. -/
theorem State.Inv.field_ctx (h : s.Inv) {x : Tier} {f : FieldView} (hf : s.fieldOf x = some f) :
    s.ctxAt f.root = some f.ctx ∧ f.ctx.admitted ∧ f.ctx.m < 2 ^ s.par.bits :=
  have hr := State.fieldOf_root hf
  ⟨hr, Ctx.sound_admitted (h.ctx_sound hr), Ctx.sound_lt (h.ctx_sound hr)⟩

theorem State.Inv.val_lt (h : s.Inv) (r : RegIx) : s.val r < 2 ^ s.par.bits := by
  have := h.regs r
  simp only [State.regSound, Bool.and_eq_true, decide_eq_true_eq] at this
  exact this.1

/-- A register tagged FP(c) names a valid context and holds a value below its modulus (R25). -/
theorem State.Inv.tagged_lt (h : s.Inv) {r : RegIx} {c : CtxIx} (ht : s.tag r = .fp c) :
    ∃ e, s.ctxAt c = some e ∧ s.val r < e.m := by
  have := h.regs r
  rw [State.tag] at ht
  simp only [State.regSound, ht, Bool.and_eq_true] at this
  cases hc : s.ctxAt c with
  | none => simp [hc] at this
  | some e => exact ⟨e, rfl, by simpa [hc, State.val] using this.2⟩

/-- A change of registers, accumulator, flags, PC, run state, fault registers, window and data memory keeps soundness when
the changed parts are sound. -/
theorem State.Inv.of_data (h : s.Inv) (hpar : t.par = s.par) (hctx : t.ctx = s.ctx) (htwr : t.twr = s.twr)
    (hcrv : t.crv = s.crv) (hprg : t.prg = s.prg) (hpre : t.pre = s.pre) (hcm : t.cm = s.cm)
    (hregs : t.allRegs) (hacc : t.acc < 2 ^ (2 * t.par.bits)) (hpc : t.pc.toNat ≤ 2 ^ 18)
    (hfault : t.faultRegsSound = true) (hwin : t.windowSound = true) (hdm : memorySound t.par.dmBytes t.dm = true) :
    t.Inv := by
  have hf := State.fieldOf_congr hctx htwr
  have hres := State.resolve_congr hctx htwr
  have hp := State.pairingOf_congr hctx htwr hcrv hprg
  refine ⟨hpar ▸ h.par, hregs, hacc, hpc, hfault, hwin, ?_, ?_, ?_, ?_, ?_, ?_, hdm⟩
  · intro c; simpa [State.ctxEntrySound, State.ctxAt, hctx, hpar] using h.ctx c
  · intro c
    have := h.twr c
    simpa [State.towerLevelSound, State.towerSound, State.twrAt, htwr, hf, hres, State.validTowers] using this
  · intro c
    have := h.crv c
    simpa [State.curveEntrySound, State.curveSound, State.crvAt, hcrv, hf, hpar] using this
  · have := h.prg
    have htb : ∀ n x, t.tiersBelow n x = s.tiersBelow n x := by
      intro n
      induction n with
      | zero => intro x; rfl
      | succ n ih => intro x; cases x <;> simp [State.tiersBelow, State.twrAt, htwr, ih]
    simpa [State.pairingSound, hprg, hp, hpar, pairingStructure, htb] using this
  · intro c
    have := h.pre c
    simpa [State.slotSound, State.preAt, hpre, hprg] using this
  · rw [hpar, hcm]; exact h.cm

/-- Fault entry keeps soundness (R356). -/
theorem State.Inv.takeFault (h : s.Inv) (k : FaultKind) (w : Word) : (s.takeFault k w).Inv :=
  h.of_data (t := s.takeFault k w) rfl rfl rfl rfl rfl rfl rfl (State.allRegs_congr (s := s) rfl rfl rfl h.regs) h.acc h.pc
    (by simp [State.faultRegsSound, FaultKind.code_ne_zero]) h.window h.dm

/-! ### Memories -/

theorem memorySound_iff {α : Type} {size : Nat} {m : List (Nat × α)} :
    memorySound size m = true ↔ Memory.wf m = true ∧ ∀ e ∈ m, e.1 < size := by
  simp [memorySound]

theorem memorySound_store {α : Type} {size : Nat} {m : List (Nat × α)} {a : Nat} {v : α} (h : memorySound size m = true)
    (ha : a < size) : memorySound size (Memory.store m a v) = true := by
  rw [memorySound_iff] at h ⊢
  refine ⟨Memory.store_wf _ _ _ h.1, fun e he => ?_⟩
  rcases Memory.mem_store he with h1 | h1
  · omega
  · exact h.2 e h1

theorem memorySound_storeAll {α : Type} {size : Nat} {m : List (Nat × α)} {a : Nat} {vs : List α}
    (h : memorySound size m = true) (ha : a + vs.length ≤ size) : memorySound size (Memory.storeAll m a vs) = true := by
  induction vs generalizing m a with
  | nil => exact h
  | cons v rest ih =>
    simp only [List.length_cons] at ha
    exact ih (memorySound_store h (by omega)) (by omega)

/-- An admitted write keeps data memory sound (R73). -/
theorem State.memorySound_putBytes {a : Nat} {bs : List Byte} (h : memorySound s.par.dmBytes s.dm = true)
    (ha : s.admits a bs.length = true) : memorySound s.par.dmBytes (s.putBytes a bs).dm = true := by
  simp only [State.admits, Bool.and_eq_true, decide_eq_true_eq] at ha
  exact memorySound_storeAll h ha.2

theorem State.Inv.dm_wf (h : s.Inv) : Memory.wf s.dm = true := (memorySound_iff.mp h.dm).1

theorem State.Inv.cm_wf (h : s.Inv) : Memory.wf s.cm = true := (memorySound_iff.mp h.cm).1

end Sys2Proof.Machine
end

