-- ==== Sys2Proof/Laws/PerInstr.lean ====
section
/-! SUPPORT. What holds of each command as syntax, one lemma per constructor. -/

namespace Sys2Proof

/-- Masking a word of fields masks each field. -/
theorem Fields.word_and (f g : Fields) :
    f.word &&& g.word =
      ({ op := f.op &&& g.op, rd := f.rd &&& g.rd, rs1 := f.rs1 &&& g.rs1, rs2 := f.rs2 &&& g.rs2, fn := f.fn &&& g.fn } : Fields).word := by
  simp only [Fields.word]
  rw [BitVec.and_append, BitVec.and_append, BitVec.and_append, BitVec.and_append]

theorem wide2_and : ∀ c : BitVec 2, wide2 c &&& 0x3c#6 = 0#6 := by decide
theorem wide3_and : ∀ c : BitVec 3, wide3 c &&& 0x38#6 = 0#6 := by decide
theorem wide4_and : ∀ c : BitVec 4, wide4 c &&& 0x30#6 = 0#6 := by decide
theorem ctxdefFn_and : ∀ (b : BitVec 1) (c : BitVec 2), (0#3 ++ b ++ c : Field6) &&& 0x38#6 = 0#6 := by decide
theorem twrdefFn_and : ∀ (n : BitVec 3) (k d : BitVec 1), (0#1 ++ n ++ k ++ d : Field6) &&& 0x20#6 = 0#6 := by decide
theorem prgdefRd_and : ∀ (n : BitVec 1) (b a : BitVec 2), (0#1 ++ n ++ b ++ a : Field6) &&& 0x20#6 = 0#6 := by decide
theorem slotPair_and : ∀ a b : BitVec 2, slotPair a b &&& 0x30#6 = 0#6 := by decide

end Sys2Proof

namespace Sys2Proof.Laws

/-- The word of a command lies in the row of the opcode map that bears its mnemonic (R104). -/
def OpcodeRow.Statement (i : Instr) : Prop :=
  ∃ row ∈ opcodeMap, row.mnemonic = i.mnemonic ∧ encode i &&& row.mask = row.pattern

/-- A row, and the mask applied field by field, show the statement. -/
theorem OpcodeRow.of_fields {i : Instr} (row : Sys2Proof.OpcodeRow) (hrow : row ∈ opcodeMap) (hm : row.mnemonic = i.mnemonic)
    (hf : (encodeFields i).op &&& (Fields.ofWord row.mask).op = (Fields.ofWord row.pattern).op ∧
      (encodeFields i).rd &&& (Fields.ofWord row.mask).rd = (Fields.ofWord row.pattern).rd ∧
      (encodeFields i).rs1 &&& (Fields.ofWord row.mask).rs1 = (Fields.ofWord row.pattern).rs1 ∧
      (encodeFields i).rs2 &&& (Fields.ofWord row.mask).rs2 = (Fields.ofWord row.pattern).rs2 ∧
      (encodeFields i).fn &&& (Fields.ofWord row.mask).fn = (Fields.ofWord row.pattern).fn)
    (hw : (Fields.ofWord row.mask).word = row.mask ∧ (Fields.ofWord row.pattern).word = row.pattern) :
    OpcodeRow.Statement i := by
  refine ⟨row, hrow, hm, ?_⟩
  rw [encode, ← hw.1, Fields.word_and, hf.1, hf.2.1, hf.2.2.1, hf.2.2.2.1, hf.2.2.2.2]
  exact hw.2

theorem OpcodeRow.nop : OpcodeRow.Statement (.nop) :=
  OpcodeRow.of_fields ⟨"NOP", 0x00000000#32, 0xFFFFFFFF#32⟩ (by decide) rfl
    ⟨BitVec.and_allOnes, BitVec.zero_and, BitVec.zero_and, BitVec.zero_and, BitVec.zero_and⟩ (by decide)

theorem OpcodeRow.halt : OpcodeRow.Statement (.halt) :=
  OpcodeRow.of_fields ⟨"HALT", 0x01000000#32, 0xFFFFFFFF#32⟩ (by decide) rfl
    ⟨BitVec.and_allOnes, BitVec.zero_and, BitVec.zero_and, BitVec.zero_and, BitVec.zero_and⟩ (by decide)

theorem OpcodeRow.jmp (target : Imm18) : OpcodeRow.Statement (.jmp target) :=
  OpcodeRow.of_fields ⟨"JMP", 0x02000000#32, 0xFFFC0000#32⟩ (by decide) rfl
    ⟨BitVec.and_allOnes, BitVec.zero_and, BitVec.and_zero, BitVec.and_zero, BitVec.and_zero⟩ (by decide)

theorem OpcodeRow.bs (flag : Flag) (target : Imm18) : OpcodeRow.Statement (.bs flag target) :=
  OpcodeRow.of_fields ⟨"BS", 0x03000000#32, 0xFFF00000#32⟩ (by decide) rfl
    ⟨BitVec.and_allOnes, wide2_and _, BitVec.and_zero, BitVec.and_zero, BitVec.and_zero⟩ (by decide)

theorem OpcodeRow.bc (flag : Flag) (target : Imm18) : OpcodeRow.Statement (.bc flag target) :=
  OpcodeRow.of_fields ⟨"BC", 0x04000000#32, 0xFFF00000#32⟩ (by decide) rfl
    ⟨BitVec.and_allOnes, wide2_and _, BitVec.and_zero, BitVec.and_zero, BitVec.and_zero⟩ (by decide)

theorem OpcodeRow.li (rd : RegIx) (imm : Imm18) : OpcodeRow.Statement (.li rd imm) :=
  OpcodeRow.of_fields ⟨"LI", 0x05000000#32, 0xFF000000#32⟩ (by decide) rfl
    ⟨BitVec.and_allOnes, BitVec.and_zero, BitVec.and_zero, BitVec.and_zero, BitVec.and_zero⟩ (by decide)

theorem OpcodeRow.mov (rd : RegIx) (rs1 : RegIx) (cnt : Field6) : OpcodeRow.Statement (.mov rd rs1 cnt) :=
  OpcodeRow.of_fields ⟨"MOV", 0x06000000#32, 0xFF000FC0#32⟩ (by decide) rfl
    ⟨BitVec.and_allOnes, BitVec.and_zero, BitVec.and_zero, BitVec.zero_and, BitVec.and_zero⟩ (by decide)

theorem OpcodeRow.ld (rd : RegIx) (rs1 : RegIx) (imm : Imm12) : OpcodeRow.Statement (.ld rd rs1 imm) :=
  OpcodeRow.of_fields ⟨"LD", 0x07000000#32, 0xFF000000#32⟩ (by decide) rfl
    ⟨BitVec.and_allOnes, BitVec.and_zero, BitVec.and_zero, BitVec.and_zero, BitVec.and_zero⟩ (by decide)

theorem OpcodeRow.st (rd : RegIx) (rs1 : RegIx) (imm : Imm12) : OpcodeRow.Statement (.st rd rs1 imm) :=
  OpcodeRow.of_fields ⟨"ST", 0x08000000#32, 0xFF000000#32⟩ (by decide) rfl
    ⟨BitVec.and_allOnes, BitVec.and_zero, BitVec.and_zero, BitVec.and_zero, BitVec.and_zero⟩ (by decide)

theorem OpcodeRow.moval (rd : RegIx) : OpcodeRow.Statement (.moval rd) :=
  OpcodeRow.of_fields ⟨"MOVAL", 0x09000000#32, 0xFF03FFFF#32⟩ (by decide) rfl
    ⟨BitVec.and_allOnes, BitVec.and_zero, BitVec.zero_and, BitVec.zero_and, BitVec.zero_and⟩ (by decide)

theorem OpcodeRow.movah (rd : RegIx) : OpcodeRow.Statement (.movah rd) :=
  OpcodeRow.of_fields ⟨"MOVAH", 0x0A000000#32, 0xFF03FFFF#32⟩ (by decide) rfl
    ⟨BitVec.and_allOnes, BitVec.and_zero, BitVec.zero_and, BitVec.zero_and, BitVec.zero_and⟩ (by decide)

theorem OpcodeRow.setal (rs1 : RegIx) : OpcodeRow.Statement (.setal rs1) :=
  OpcodeRow.of_fields ⟨"SETAL", 0x0B000000#32, 0xFFFC0FFF#32⟩ (by decide) rfl
    ⟨BitVec.and_allOnes, BitVec.zero_and, BitVec.and_zero, BitVec.zero_and, BitVec.zero_and⟩ (by decide)

theorem OpcodeRow.setah (rs1 : RegIx) : OpcodeRow.Statement (.setah rs1) :=
  OpcodeRow.of_fields ⟨"SETAH", 0x0C000000#32, 0xFFFC0FFF#32⟩ (by decide) rfl
    ⟨BitVec.and_allOnes, BitVec.zero_and, BitVec.and_zero, BitVec.zero_and, BitVec.zero_and⟩ (by decide)

theorem OpcodeRow.csrr (rd : RegIx) (csr : Imm18) : OpcodeRow.Statement (.csrr rd csr) :=
  OpcodeRow.of_fields ⟨"CSRR", 0x0D000000#32, 0xFF000000#32⟩ (by decide) rfl
    ⟨BitVec.and_allOnes, BitVec.and_zero, BitVec.and_zero, BitVec.and_zero, BitVec.and_zero⟩ (by decide)

theorem OpcodeRow.csrw (rd : RegIx) (csr : Imm18) : OpcodeRow.Statement (.csrw rd csr) :=
  OpcodeRow.of_fields ⟨"CSRW", 0x0E000000#32, 0xFF000000#32⟩ (by decide) rfl
    ⟨BitVec.and_allOnes, BitVec.and_zero, BitVec.and_zero, BitVec.and_zero, BitVec.and_zero⟩ (by decide)

theorem OpcodeRow.add (rd : RegIx) (rs1 : RegIx) (rs2 : RegIx) : OpcodeRow.Statement (.add rd rs1 rs2) :=
  OpcodeRow.of_fields ⟨"ADD", 0x10000000#32, 0xFF00003F#32⟩ (by decide) rfl
    ⟨BitVec.and_allOnes, BitVec.and_zero, BitVec.and_zero, BitVec.and_zero, BitVec.zero_and⟩ (by decide)

theorem OpcodeRow.sub (rd : RegIx) (rs1 : RegIx) (rs2 : RegIx) : OpcodeRow.Statement (.sub rd rs1 rs2) :=
  OpcodeRow.of_fields ⟨"SUB", 0x11000000#32, 0xFF00003F#32⟩ (by decide) rfl
    ⟨BitVec.and_allOnes, BitVec.and_zero, BitVec.and_zero, BitVec.and_zero, BitVec.zero_and⟩ (by decide)

theorem OpcodeRow.mul (rs1 : RegIx) (rs2 : RegIx) : OpcodeRow.Statement (.mul rs1 rs2) :=
  OpcodeRow.of_fields ⟨"MUL", 0x12000000#32, 0xFFFC003F#32⟩ (by decide) rfl
    ⟨BitVec.and_allOnes, BitVec.zero_and, BitVec.and_zero, BitVec.and_zero, BitVec.zero_and⟩ (by decide)

theorem OpcodeRow.shl1 (rd : RegIx) (rs1 : RegIx) : OpcodeRow.Statement (.shl1 rd rs1) :=
  OpcodeRow.of_fields ⟨"SHL1", 0x13000000#32, 0xFF000FFF#32⟩ (by decide) rfl
    ⟨BitVec.and_allOnes, BitVec.and_zero, BitVec.and_zero, BitVec.zero_and, BitVec.zero_and⟩ (by decide)

theorem OpcodeRow.shr1 (rd : RegIx) (rs1 : RegIx) : OpcodeRow.Statement (.shr1 rd rs1) :=
  OpcodeRow.of_fields ⟨"SHR1", 0x14000000#32, 0xFF000FFF#32⟩ (by decide) rfl
    ⟨BitVec.and_allOnes, BitVec.and_zero, BitVec.and_zero, BitVec.zero_and, BitVec.zero_and⟩ (by decide)

theorem OpcodeRow.shl (rd : RegIx) (rs1 : RegIx) (rs2 : RegIx) : OpcodeRow.Statement (.shl rd rs1 rs2) :=
  OpcodeRow.of_fields ⟨"SHL", 0x15000000#32, 0xFF00003F#32⟩ (by decide) rfl
    ⟨BitVec.and_allOnes, BitVec.and_zero, BitVec.and_zero, BitVec.and_zero, BitVec.zero_and⟩ (by decide)

theorem OpcodeRow.shr (rd : RegIx) (rs1 : RegIx) (rs2 : RegIx) : OpcodeRow.Statement (.shr rd rs1 rs2) :=
  OpcodeRow.of_fields ⟨"SHR", 0x16000000#32, 0xFF00003F#32⟩ (by decide) rfl
    ⟨BitVec.and_allOnes, BitVec.and_zero, BitVec.and_zero, BitVec.and_zero, BitVec.zero_and⟩ (by decide)

theorem OpcodeRow.cmp (rs1 : RegIx) (rs2 : RegIx) : OpcodeRow.Statement (.cmp rs1 rs2) :=
  OpcodeRow.of_fields ⟨"CMP", 0x17000000#32, 0xFFFC003F#32⟩ (by decide) rfl
    ⟨BitVec.and_allOnes, BitVec.zero_and, BitVec.and_zero, BitVec.and_zero, BitVec.zero_and⟩ (by decide)

theorem OpcodeRow.bitlen (rd : RegIx) (rs1 : RegIx) : OpcodeRow.Statement (.bitlen rd rs1) :=
  OpcodeRow.of_fields ⟨"BITLEN", 0x18000000#32, 0xFF000FFF#32⟩ (by decide) rfl
    ⟨BitVec.and_allOnes, BitVec.and_zero, BitVec.and_zero, BitVec.zero_and, BitVec.zero_and⟩ (by decide)

theorem OpcodeRow.btst (rs1 : RegIx) (rs2 : RegIx) : OpcodeRow.Statement (.btst rs1 rs2) :=
  OpcodeRow.of_fields ⟨"BTST", 0x19000000#32, 0xFFFC003F#32⟩ (by decide) rfl
    ⟨BitVec.and_allOnes, BitVec.zero_and, BitVec.and_zero, BitVec.and_zero, BitVec.zero_and⟩ (by decide)

theorem OpcodeRow.ctxdef (c : CtxIx) (rs1 : RegIx) (strat : Strategy) : OpcodeRow.Statement (.ctxdef c rs1 strat) :=
  OpcodeRow.of_fields ⟨"CTXDEF", 0x20000000#32, 0xFFFC0FF8#32⟩ (by decide) rfl
    ⟨BitVec.and_allOnes, BitVec.zero_and, BitVec.and_zero, BitVec.zero_and, ctxdefFn_and _ _⟩ (by decide)

theorem OpcodeRow.redc (rd : RegIx) (c : CtxIx) : OpcodeRow.Statement (.redc rd c) :=
  OpcodeRow.of_fields ⟨"REDC", 0x21000000#32, 0xFF03FFFC#32⟩ (by decide) rfl
    ⟨BitVec.and_allOnes, BitVec.and_zero, BitVec.zero_and, BitVec.zero_and, wide2_and _⟩ (by decide)

theorem OpcodeRow.bred (rd : RegIx) (c : CtxIx) : OpcodeRow.Statement (.bred rd c) :=
  OpcodeRow.of_fields ⟨"BRED", 0x22000000#32, 0xFF03FFFC#32⟩ (by decide) rfl
    ⟨BitVec.and_allOnes, BitVec.and_zero, BitVec.zero_and, BitVec.zero_and, wide2_and _⟩ (by decide)

theorem OpcodeRow.modadd (rd : RegIx) (rs1 : RegIx) (rs2 : RegIx) (c : CtxIx) : OpcodeRow.Statement (.modadd rd rs1 rs2 c) :=
  OpcodeRow.of_fields ⟨"MODADD", 0x23000000#32, 0xFF00003C#32⟩ (by decide) rfl
    ⟨BitVec.and_allOnes, BitVec.and_zero, BitVec.and_zero, BitVec.and_zero, wide2_and _⟩ (by decide)

theorem OpcodeRow.modsub (rd : RegIx) (rs1 : RegIx) (rs2 : RegIx) (c : CtxIx) : OpcodeRow.Statement (.modsub rd rs1 rs2 c) :=
  OpcodeRow.of_fields ⟨"MODSUB", 0x24000000#32, 0xFF00003C#32⟩ (by decide) rfl
    ⟨BitVec.and_allOnes, BitVec.and_zero, BitVec.and_zero, BitVec.and_zero, wide2_and _⟩ (by decide)

theorem OpcodeRow.modmul (rd : RegIx) (rs1 : RegIx) (rs2 : RegIx) (c : CtxIx) : OpcodeRow.Statement (.modmul rd rs1 rs2 c) :=
  OpcodeRow.of_fields ⟨"MODMUL", 0x25000000#32, 0xFF00003C#32⟩ (by decide) rfl
    ⟨BitVec.and_allOnes, BitVec.and_zero, BitVec.and_zero, BitVec.and_zero, wide2_and _⟩ (by decide)

theorem OpcodeRow.modinv (rd : RegIx) (rs1 : RegIx) (c : CtxIx) : OpcodeRow.Statement (.modinv rd rs1 c) :=
  OpcodeRow.of_fields ⟨"MODINV", 0x26000000#32, 0xFF000FFC#32⟩ (by decide) rfl
    ⟨BitVec.and_allOnes, BitVec.and_zero, BitVec.and_zero, BitVec.zero_and, wide2_and _⟩ (by decide)

theorem OpcodeRow.modpow (rd : RegIx) (rs1 : RegIx) (rs2 : RegIx) (c : CtxIx) : OpcodeRow.Statement (.modpow rd rs1 rs2 c) :=
  OpcodeRow.of_fields ⟨"MODPOW", 0x27000000#32, 0xFF00003C#32⟩ (by decide) rfl
    ⟨BitVec.and_allOnes, BitVec.and_zero, BitVec.and_zero, BitVec.and_zero, wide2_and _⟩ (by decide)

theorem OpcodeRow.jacobi (rd : RegIx) (rs1 : RegIx) (rs2 : RegIx) : OpcodeRow.Statement (.jacobi rd rs1 rs2) :=
  OpcodeRow.of_fields ⟨"JACOBI", 0x28000000#32, 0xFF00003F#32⟩ (by decide) rfl
    ⟨BitVec.and_allOnes, BitVec.and_zero, BitVec.and_zero, BitVec.and_zero, BitVec.zero_and⟩ (by decide)

theorem OpcodeRow.fzero (rd : RegIx) (c : CtxIx) : OpcodeRow.Statement (.fzero rd c) :=
  OpcodeRow.of_fields ⟨"FZERO", 0x30000000#32, 0xFF03FFFC#32⟩ (by decide) rfl
    ⟨BitVec.and_allOnes, BitVec.and_zero, BitVec.zero_and, BitVec.zero_and, wide2_and _⟩ (by decide)

theorem OpcodeRow.fone (rd : RegIx) (c : CtxIx) : OpcodeRow.Statement (.fone rd c) :=
  OpcodeRow.of_fields ⟨"FONE", 0x31000000#32, 0xFF03FFFC#32⟩ (by decide) rfl
    ⟨BitVec.and_allOnes, BitVec.and_zero, BitVec.zero_and, BitVec.zero_and, wide2_and _⟩ (by decide)

theorem OpcodeRow.ffromi (rd : RegIx) (rs1 : RegIx) (c : CtxIx) : OpcodeRow.Statement (.ffromi rd rs1 c) :=
  OpcodeRow.of_fields ⟨"FFROMI", 0x32000000#32, 0xFF000FFC#32⟩ (by decide) rfl
    ⟨BitVec.and_allOnes, BitVec.and_zero, BitVec.and_zero, BitVec.zero_and, wide2_and _⟩ (by decide)

theorem OpcodeRow.ftoi (rd : RegIx) (rs1 : RegIx) : OpcodeRow.Statement (.ftoi rd rs1) :=
  OpcodeRow.of_fields ⟨"FTOI", 0x33000000#32, 0xFF000FFF#32⟩ (by decide) rfl
    ⟨BitVec.and_allOnes, BitVec.and_zero, BitVec.and_zero, BitVec.zero_and, BitVec.zero_and⟩ (by decide)

theorem OpcodeRow.fadd (rd : RegIx) (rs1 : RegIx) (rs2 : RegIx) : OpcodeRow.Statement (.fadd rd rs1 rs2) :=
  OpcodeRow.of_fields ⟨"FADD", 0x34000000#32, 0xFF00003F#32⟩ (by decide) rfl
    ⟨BitVec.and_allOnes, BitVec.and_zero, BitVec.and_zero, BitVec.and_zero, BitVec.zero_and⟩ (by decide)

theorem OpcodeRow.fsub (rd : RegIx) (rs1 : RegIx) (rs2 : RegIx) : OpcodeRow.Statement (.fsub rd rs1 rs2) :=
  OpcodeRow.of_fields ⟨"FSUB", 0x35000000#32, 0xFF00003F#32⟩ (by decide) rfl
    ⟨BitVec.and_allOnes, BitVec.and_zero, BitVec.and_zero, BitVec.and_zero, BitVec.zero_and⟩ (by decide)

theorem OpcodeRow.fneg (rd : RegIx) (rs1 : RegIx) : OpcodeRow.Statement (.fneg rd rs1) :=
  OpcodeRow.of_fields ⟨"FNEG", 0x36000000#32, 0xFF000FFF#32⟩ (by decide) rfl
    ⟨BitVec.and_allOnes, BitVec.and_zero, BitVec.and_zero, BitVec.zero_and, BitVec.zero_and⟩ (by decide)

theorem OpcodeRow.fmul (rd : RegIx) (rs1 : RegIx) (rs2 : RegIx) : OpcodeRow.Statement (.fmul rd rs1 rs2) :=
  OpcodeRow.of_fields ⟨"FMUL", 0x37000000#32, 0xFF00003F#32⟩ (by decide) rfl
    ⟨BitVec.and_allOnes, BitVec.and_zero, BitVec.and_zero, BitVec.and_zero, BitVec.zero_and⟩ (by decide)

theorem OpcodeRow.fsqr (rd : RegIx) (rs1 : RegIx) : OpcodeRow.Statement (.fsqr rd rs1) :=
  OpcodeRow.of_fields ⟨"FSQR", 0x38000000#32, 0xFF000FFF#32⟩ (by decide) rfl
    ⟨BitVec.and_allOnes, BitVec.and_zero, BitVec.and_zero, BitVec.zero_and, BitVec.zero_and⟩ (by decide)

theorem OpcodeRow.finv (rd : RegIx) (rs1 : RegIx) : OpcodeRow.Statement (.finv rd rs1) :=
  OpcodeRow.of_fields ⟨"FINV", 0x39000000#32, 0xFF000FFF#32⟩ (by decide) rfl
    ⟨BitVec.and_allOnes, BitVec.and_zero, BitVec.and_zero, BitVec.zero_and, BitVec.zero_and⟩ (by decide)

theorem OpcodeRow.fpow (rd : RegIx) (rs1 : RegIx) (rs2 : RegIx) : OpcodeRow.Statement (.fpow rd rs1 rs2) :=
  OpcodeRow.of_fields ⟨"FPOW", 0x3A000000#32, 0xFF00003F#32⟩ (by decide) rfl
    ⟨BitVec.and_allOnes, BitVec.and_zero, BitVec.and_zero, BitVec.and_zero, BitVec.zero_and⟩ (by decide)

theorem OpcodeRow.fsqrt (rd : RegIx) (rs1 : RegIx) : OpcodeRow.Statement (.fsqrt rd rs1) :=
  OpcodeRow.of_fields ⟨"FSQRT", 0x3B000000#32, 0xFF000FFF#32⟩ (by decide) rfl
    ⟨BitVec.and_allOnes, BitVec.and_zero, BitVec.and_zero, BitVec.zero_and, BitVec.zero_and⟩ (by decide)

theorem OpcodeRow.fisz (rs1 : RegIx) : OpcodeRow.Statement (.fisz rs1) :=
  OpcodeRow.of_fields ⟨"FISZ", 0x3C000000#32, 0xFFFC0FFF#32⟩ (by decide) rfl
    ⟨BitVec.and_allOnes, BitVec.zero_and, BitVec.and_zero, BitVec.zero_and, BitVec.zero_and⟩ (by decide)

theorem OpcodeRow.feq (rs1 : RegIx) (rs2 : RegIx) : OpcodeRow.Statement (.feq rs1 rs2) :=
  OpcodeRow.of_fields ⟨"FEQ", 0x3D000000#32, 0xFFFC003F#32⟩ (by decide) rfl
    ⟨BitVec.and_allOnes, BitVec.zero_and, BitVec.and_zero, BitVec.and_zero, BitVec.zero_and⟩ (by decide)

theorem OpcodeRow.fenc (rd : RegIx) (rs1 : RegIx) : OpcodeRow.Statement (.fenc rd rs1) :=
  OpcodeRow.of_fields ⟨"FENC", 0x3E000000#32, 0xFF000FFF#32⟩ (by decide) rfl
    ⟨BitVec.and_allOnes, BitVec.and_zero, BitVec.and_zero, BitVec.zero_and, BitVec.zero_and⟩ (by decide)

theorem OpcodeRow.fdec (rd : RegIx) (rs1 : RegIx) (c : CtxIx) : OpcodeRow.Statement (.fdec rd rs1 c) :=
  OpcodeRow.of_fields ⟨"FDEC", 0x3F000000#32, 0xFF000FFC#32⟩ (by decide) rfl
    ⟨BitVec.and_allOnes, BitVec.and_zero, BitVec.and_zero, BitVec.zero_and, wide2_and _⟩ (by decide)

theorem OpcodeRow.fbinv (rd : RegIx) (rs1 : RegIx) (cnt : Field6) : OpcodeRow.Statement (.fbinv rd rs1 cnt) :=
  OpcodeRow.of_fields ⟨"FBINV", 0x40000000#32, 0xFF000FC0#32⟩ (by decide) rfl
    ⟨BitVec.and_allOnes, BitVec.and_zero, BitVec.and_zero, BitVec.zero_and, BitVec.and_zero⟩ (by decide)

theorem OpcodeRow.twrdef (t : TwrIx) (rs1 : RegIx) (rs2 : RegIx) (deg : Degree) (base : FieldSel) : OpcodeRow.Statement (.twrdef t rs1 rs2 deg base) :=
  OpcodeRow.of_fields ⟨"TWRDEF", 0x50000000#32, 0xFFE00020#32⟩ (by decide) rfl
    ⟨BitVec.and_allOnes, wide3_and _, BitVec.and_zero, BitVec.and_zero, twrdefFn_and _ _ _⟩ (by decide)

theorem OpcodeRow.ezero (rd : RegIx) (t : TwrIx) : OpcodeRow.Statement (.ezero rd t) :=
  OpcodeRow.of_fields ⟨"EZERO", 0x51000000#32, 0xFF03FFF8#32⟩ (by decide) rfl
    ⟨BitVec.and_allOnes, BitVec.and_zero, BitVec.zero_and, BitVec.zero_and, wide3_and _⟩ (by decide)

theorem OpcodeRow.eone (rd : RegIx) (t : TwrIx) : OpcodeRow.Statement (.eone rd t) :=
  OpcodeRow.of_fields ⟨"EONE", 0x52000000#32, 0xFF03FFF8#32⟩ (by decide) rfl
    ⟨BitVec.and_allOnes, BitVec.and_zero, BitVec.zero_and, BitVec.zero_and, wide3_and _⟩ (by decide)

theorem OpcodeRow.eadd (rd : RegIx) (rs1 : RegIx) (rs2 : RegIx) (t : TwrIx) : OpcodeRow.Statement (.eadd rd rs1 rs2 t) :=
  OpcodeRow.of_fields ⟨"EADD", 0x53000000#32, 0xFF000038#32⟩ (by decide) rfl
    ⟨BitVec.and_allOnes, BitVec.and_zero, BitVec.and_zero, BitVec.and_zero, wide3_and _⟩ (by decide)

theorem OpcodeRow.esub (rd : RegIx) (rs1 : RegIx) (rs2 : RegIx) (t : TwrIx) : OpcodeRow.Statement (.esub rd rs1 rs2 t) :=
  OpcodeRow.of_fields ⟨"ESUB", 0x54000000#32, 0xFF000038#32⟩ (by decide) rfl
    ⟨BitVec.and_allOnes, BitVec.and_zero, BitVec.and_zero, BitVec.and_zero, wide3_and _⟩ (by decide)

theorem OpcodeRow.eneg (rd : RegIx) (rs1 : RegIx) (t : TwrIx) : OpcodeRow.Statement (.eneg rd rs1 t) :=
  OpcodeRow.of_fields ⟨"ENEG", 0x55000000#32, 0xFF000FF8#32⟩ (by decide) rfl
    ⟨BitVec.and_allOnes, BitVec.and_zero, BitVec.and_zero, BitVec.zero_and, wide3_and _⟩ (by decide)

theorem OpcodeRow.emul (rd : RegIx) (rs1 : RegIx) (rs2 : RegIx) (t : TwrIx) : OpcodeRow.Statement (.emul rd rs1 rs2 t) :=
  OpcodeRow.of_fields ⟨"EMUL", 0x56000000#32, 0xFF000038#32⟩ (by decide) rfl
    ⟨BitVec.and_allOnes, BitVec.and_zero, BitVec.and_zero, BitVec.and_zero, wide3_and _⟩ (by decide)

theorem OpcodeRow.esqr (rd : RegIx) (rs1 : RegIx) (t : TwrIx) : OpcodeRow.Statement (.esqr rd rs1 t) :=
  OpcodeRow.of_fields ⟨"ESQR", 0x57000000#32, 0xFF000FF8#32⟩ (by decide) rfl
    ⟨BitVec.and_allOnes, BitVec.and_zero, BitVec.and_zero, BitVec.zero_and, wide3_and _⟩ (by decide)

theorem OpcodeRow.einv (rd : RegIx) (rs1 : RegIx) (t : TwrIx) : OpcodeRow.Statement (.einv rd rs1 t) :=
  OpcodeRow.of_fields ⟨"EINV", 0x58000000#32, 0xFF000FF8#32⟩ (by decide) rfl
    ⟨BitVec.and_allOnes, BitVec.and_zero, BitVec.and_zero, BitVec.zero_and, wide3_and _⟩ (by decide)

theorem OpcodeRow.epow (rd : RegIx) (rs1 : RegIx) (rs2 : RegIx) (t : TwrIx) : OpcodeRow.Statement (.epow rd rs1 rs2 t) :=
  OpcodeRow.of_fields ⟨"EPOW", 0x59000000#32, 0xFF000038#32⟩ (by decide) rfl
    ⟨BitVec.and_allOnes, BitVec.and_zero, BitVec.and_zero, BitVec.and_zero, wide3_and _⟩ (by decide)

theorem OpcodeRow.eisz (rs1 : RegIx) (t : TwrIx) : OpcodeRow.Statement (.eisz rs1 t) :=
  OpcodeRow.of_fields ⟨"EISZ", 0x5A000000#32, 0xFFFC0FF8#32⟩ (by decide) rfl
    ⟨BitVec.and_allOnes, BitVec.zero_and, BitVec.and_zero, BitVec.zero_and, wide3_and _⟩ (by decide)

theorem OpcodeRow.eeq (rs1 : RegIx) (rs2 : RegIx) (t : TwrIx) : OpcodeRow.Statement (.eeq rs1 rs2 t) :=
  OpcodeRow.of_fields ⟨"EEQ", 0x5B000000#32, 0xFFFC0038#32⟩ (by decide) rfl
    ⟨BitVec.and_allOnes, BitVec.zero_and, BitVec.and_zero, BitVec.and_zero, wide3_and _⟩ (by decide)

theorem OpcodeRow.econj (rd : RegIx) (rs1 : RegIx) (t : TwrIx) : OpcodeRow.Statement (.econj rd rs1 t) :=
  OpcodeRow.of_fields ⟨"ECONJ", 0x5C000000#32, 0xFF000FF8#32⟩ (by decide) rfl
    ⟨BitVec.and_allOnes, BitVec.and_zero, BitVec.and_zero, BitVec.zero_and, wide3_and _⟩ (by decide)

theorem OpcodeRow.efrob (rd : RegIx) (rs1 : RegIx) (j : Field6) (t : TwrIx) : OpcodeRow.Statement (.efrob rd rs1 j t) :=
  OpcodeRow.of_fields ⟨"EFROB", 0x5D000000#32, 0xFF000038#32⟩ (by decide) rfl
    ⟨BitVec.and_allOnes, BitVec.and_zero, BitVec.and_zero, BitVec.and_zero, wide3_and _⟩ (by decide)

theorem OpcodeRow.ebinv (rd : RegIx) (rs1 : RegIx) (cnt : Field6) (t : TwrIx) : OpcodeRow.Statement (.ebinv rd rs1 cnt t) :=
  OpcodeRow.of_fields ⟨"EBINV", 0x5E000000#32, 0xFF000038#32⟩ (by decide) rfl
    ⟨BitVec.and_allOnes, BitVec.and_zero, BitVec.and_zero, BitVec.and_zero, wide3_and _⟩ (by decide)

theorem OpcodeRow.crvdef (i : CrvIx) (rs1 : RegIx) (rs2 : RegIx) (twist : BitVec 2) (fd : FieldSel) : OpcodeRow.Statement (.crvdef i rs1 rs2 twist fd) :=
  OpcodeRow.of_fields ⟨"CRVDEF", 0x60000000#32, 0xFFF00000#32⟩ (by decide) rfl
    ⟨BitVec.and_allOnes, wide2_and _, BitVec.and_zero, BitVec.and_zero, BitVec.and_zero⟩ (by decide)

theorem OpcodeRow.plift (rd : RegIx) (rs1 : RegIx) (i : CrvIx) : OpcodeRow.Statement (.plift rd rs1 i) :=
  OpcodeRow.of_fields ⟨"PLIFT", 0x61000000#32, 0xFF000FFC#32⟩ (by decide) rfl
    ⟨BitVec.and_allOnes, BitVec.and_zero, BitVec.and_zero, BitVec.zero_and, wide2_and _⟩ (by decide)

theorem OpcodeRow.pdbl (rd : RegIx) (rs1 : RegIx) (i : CrvIx) : OpcodeRow.Statement (.pdbl rd rs1 i) :=
  OpcodeRow.of_fields ⟨"PDBL", 0x62000000#32, 0xFF000FFC#32⟩ (by decide) rfl
    ⟨BitVec.and_allOnes, BitVec.and_zero, BitVec.and_zero, BitVec.zero_and, wide2_and _⟩ (by decide)

theorem OpcodeRow.padd (rd : RegIx) (rs1 : RegIx) (rs2 : RegIx) (i : CrvIx) : OpcodeRow.Statement (.padd rd rs1 rs2 i) :=
  OpcodeRow.of_fields ⟨"PADD", 0x63000000#32, 0xFF00003C#32⟩ (by decide) rfl
    ⟨BitVec.and_allOnes, BitVec.and_zero, BitVec.and_zero, BitVec.and_zero, wide2_and _⟩ (by decide)

theorem OpcodeRow.pmadd (rd : RegIx) (rs1 : RegIx) (rs2 : RegIx) (i : CrvIx) : OpcodeRow.Statement (.pmadd rd rs1 rs2 i) :=
  OpcodeRow.of_fields ⟨"PMADD", 0x64000000#32, 0xFF00003C#32⟩ (by decide) rfl
    ⟨BitVec.and_allOnes, BitVec.and_zero, BitVec.and_zero, BitVec.and_zero, wide2_and _⟩ (by decide)

theorem OpcodeRow.pneg (rd : RegIx) (rs1 : RegIx) (i : CrvIx) : OpcodeRow.Statement (.pneg rd rs1 i) :=
  OpcodeRow.of_fields ⟨"PNEG", 0x65000000#32, 0xFF000FFC#32⟩ (by decide) rfl
    ⟨BitVec.and_allOnes, BitVec.and_zero, BitVec.and_zero, BitVec.zero_and, wide2_and _⟩ (by decide)

theorem OpcodeRow.pisinf (rs1 : RegIx) (i : CrvIx) : OpcodeRow.Statement (.pisinf rs1 i) :=
  OpcodeRow.of_fields ⟨"PISINF", 0x66000000#32, 0xFFFC0FFC#32⟩ (by decide) rfl
    ⟨BitVec.and_allOnes, BitVec.zero_and, BitVec.and_zero, BitVec.zero_and, wide2_and _⟩ (by decide)

theorem OpcodeRow.paff (rd : RegIx) (rs1 : RegIx) (i : CrvIx) : OpcodeRow.Statement (.paff rd rs1 i) :=
  OpcodeRow.of_fields ⟨"PAFF", 0x67000000#32, 0xFF000FFC#32⟩ (by decide) rfl
    ⟨BitVec.and_allOnes, BitVec.and_zero, BitVec.and_zero, BitVec.zero_and, wide2_and _⟩ (by decide)

theorem OpcodeRow.ponc (rs1 : RegIx) (i : CrvIx) : OpcodeRow.Statement (.ponc rs1 i) :=
  OpcodeRow.of_fields ⟨"PONC", 0x68000000#32, 0xFFFC0FFC#32⟩ (by decide) rfl
    ⟨BitVec.and_allOnes, BitVec.zero_and, BitVec.and_zero, BitVec.zero_and, wide2_and _⟩ (by decide)

theorem OpcodeRow.peq (rs1 : RegIx) (rs2 : RegIx) (i : CrvIx) : OpcodeRow.Statement (.peq rs1 rs2 i) :=
  OpcodeRow.of_fields ⟨"PEQ", 0x69000000#32, 0xFFFC003C#32⟩ (by decide) rfl
    ⟨BitVec.and_allOnes, BitVec.zero_and, BitVec.and_zero, BitVec.and_zero, wide2_and _⟩ (by decide)

theorem OpcodeRow.psmul (rd : RegIx) (rs1 : RegIx) (rs2 : RegIx) (i : CrvIx) : OpcodeRow.Statement (.psmul rd rs1 rs2 i) :=
  OpcodeRow.of_fields ⟨"PSMUL", 0x6A000000#32, 0xFF00003C#32⟩ (by decide) rfl
    ⟨BitVec.and_allOnes, BitVec.and_zero, BitVec.and_zero, BitVec.and_zero, wide2_and _⟩ (by decide)

theorem OpcodeRow.psmul2 (rd : RegIx) (rs1 : RegIx) (rs2 : RegIx) (i : CrvIx) : OpcodeRow.Statement (.psmul2 rd rs1 rs2 i) :=
  OpcodeRow.of_fields ⟨"PSMUL2", 0x6B000000#32, 0xFF00003C#32⟩ (by decide) rfl
    ⟨BitVec.and_allOnes, BitVec.and_zero, BitVec.and_zero, BitVec.and_zero, wide2_and _⟩ (by decide)

theorem OpcodeRow.pinf (rd : RegIx) (i : CrvIx) : OpcodeRow.Statement (.pinf rd i) :=
  OpcodeRow.of_fields ⟨"PINF", 0x6C000000#32, 0xFF03FFFC#32⟩ (by decide) rfl
    ⟨BitVec.and_allOnes, BitVec.and_zero, BitVec.zero_and, BitVec.zero_and, wide2_and _⟩ (by decide)

theorem OpcodeRow.wnafenc (rd : RegIx) (rs1 : RegIx) (rs2 : RegIx) (w : BitVec 4) : OpcodeRow.Statement (.wnafenc rd rs1 rs2 w) :=
  OpcodeRow.of_fields ⟨"WNAFENC", 0x70000000#32, 0xFF000030#32⟩ (by decide) rfl
    ⟨BitVec.and_allOnes, BitVec.and_zero, BitVec.and_zero, BitVec.and_zero, wide4_and _⟩ (by decide)

theorem OpcodeRow.wnafdec (rd : RegIx) (rs1 : RegIx) (rs2 : RegIx) : OpcodeRow.Statement (.wnafdec rd rs1 rs2) :=
  OpcodeRow.of_fields ⟨"WNAFDEC", 0x71000000#32, 0xFF00003F#32⟩ (by decide) rfl
    ⟨BitVec.and_allOnes, BitVec.and_zero, BitVec.and_zero, BitVec.and_zero, BitVec.zero_and⟩ (by decide)

theorem OpcodeRow.prgdef (g1 : CrvIx) (g2 : CrvIx) (neg : Bool) (rs1 : RegIx) (rs2 : RegIx) (t : TwrIx) : OpcodeRow.Statement (.prgdef g1 g2 neg rs1 rs2 t) :=
  OpcodeRow.of_fields ⟨"PRGDEF", 0x80000000#32, 0xFF800038#32⟩ (by decide) rfl
    ⟨BitVec.and_allOnes, prgdefRd_and _ _ _, BitVec.and_zero, BitVec.and_zero, wide3_and _⟩ (by decide)

theorem OpcodeRow.precg1 (slot : SlotIx) (rs1 : RegIx) : OpcodeRow.Statement (.precg1 slot rs1) :=
  OpcodeRow.of_fields ⟨"PRECG1", 0x81000000#32, 0xFFF00FFF#32⟩ (by decide) rfl
    ⟨BitVec.and_allOnes, wide2_and _, BitVec.and_zero, BitVec.zero_and, BitVec.zero_and⟩ (by decide)

theorem OpcodeRow.precg2 (slot : SlotIx) (rs1 : RegIx) : OpcodeRow.Statement (.precg2 slot rs1) :=
  OpcodeRow.of_fields ⟨"PRECG2", 0x82000000#32, 0xFFF00FFF#32⟩ (by decide) rfl
    ⟨BitVec.and_allOnes, wide2_and _, BitVec.and_zero, BitVec.zero_and, BitVec.zero_and⟩ (by decide)

theorem OpcodeRow.mloop (rd : RegIx) (s1 : SlotIx) (s2 : SlotIx) : OpcodeRow.Statement (.mloop rd s1 s2) :=
  OpcodeRow.of_fields ⟨"MLOOP", 0x83000000#32, 0xFF030FFF#32⟩ (by decide) rfl
    ⟨BitVec.and_allOnes, BitVec.and_zero, slotPair_and _ _, BitVec.zero_and, BitVec.zero_and⟩ (by decide)

theorem OpcodeRow.dmloop (rd : RegIx) (s1a : SlotIx) (s2a : SlotIx) (s1b : SlotIx) (s2b : SlotIx) : OpcodeRow.Statement (.dmloop rd s1a s2a s1b s2b) :=
  OpcodeRow.of_fields ⟨"DMLOOP", 0x84000000#32, 0xFF030C3F#32⟩ (by decide) rfl
    ⟨BitVec.and_allOnes, BitVec.and_zero, slotPair_and _ _, slotPair_and _ _, BitVec.zero_and⟩ (by decide)

theorem OpcodeRow.fexp (rd : RegIx) (rs1 : RegIx) : OpcodeRow.Statement (.fexp rd rs1) :=
  OpcodeRow.of_fields ⟨"FEXP", 0x85000000#32, 0xFF000FFF#32⟩ (by decide) rfl
    ⟨BitVec.and_allOnes, BitVec.and_zero, BitVec.and_zero, BitVec.zero_and, BitVec.zero_and⟩ (by decide)

theorem OpcodeRow.rpair (rd : RegIx) (rs1 : RegIx) (rs2 : RegIx) : OpcodeRow.Statement (.rpair rd rs1 rs2) :=
  OpcodeRow.of_fields ⟨"RPAIR", 0x86000000#32, 0xFF00003F#32⟩ (by decide) rfl
    ⟨BitVec.and_allOnes, BitVec.and_zero, BitVec.and_zero, BitVec.and_zero, BitVec.zero_and⟩ (by decide)

end Sys2Proof.Laws
end

