-- ==== Sys2Proof/Machine/Assembler.lean ====
section
/-! DEFINITION. Assembler text: how each command is written (30_encoding.md R109) and the shorthands (R110). The hardware knows
only words; the text names them. -/

namespace Sys2Proof

/-- A number in decimal. -/
def asmNum {w : Nat} (v : BitVec w) : String := Nat.repr v.toNat

/-- `xN` (R109). -/
def asmReg (r : RegIx) : String := "x" ++ asmNum r

/-- A count is written as the real count, 1 to 64 (R109). -/
def asmCount (cnt : Field6) : String := Nat.repr (cnt.toNat + 1)

/-- The flag names (R109). -/
def flagName : Flag → String
  | .c => "C"
  | .z => "Z"
  | .l => "L"
  | .t => "T"

/-- The strategy names (R109). -/
def strategyName : Strategy → String
  | .mont => "MONT"
  | .barr => "BARR"

/-- The degree, 2 or 3 (R242). -/
def degreeName : Degree → String
  | .quadratic => "2"
  | .cubic => "3"

/-- The twist names; the illegal code 3 has none and is written as its number (R109). -/
def twistName (t : BitVec 2) : String :=
  if t = 0#2 then "NONE" else if t = 1#2 then "D" else if t = 2#2 then "M" else "3"

/-- The sign names (R109). -/
def signName (neg : Bool) : String := if neg then "NEG" else "POS"

/-- A field designator (R109). -/
def fieldName (f : FieldSel) : String := (if f.tower then "T(" else "P(") ++ asmNum f.num ++ ")"

/-- Operands separated by commas. -/
def asmOperands : List String → String
  | [] => ""
  | [o] => o
  | o :: rest => o ++ ", " ++ asmOperands rest

/-- A mnemonic and its operands. -/
def asmLine (mnemonic : String) (ops : List String) : String :=
  match ops with
  | [] => mnemonic
  | _ :: _ => mnemonic ++ " " ++ asmOperands ops

/-- The command as a line of assembler text, its operands in the order of the "assembler" column of the map (R104, R109). -/
def Instr.asm : Instr → String
  | .nop => asmLine "NOP" []
  | .halt => asmLine "HALT" []
  | .jmp target => asmLine "JMP" [asmNum target]
  | .bs flag target => asmLine "BS" [flagName flag, asmNum target]
  | .bc flag target => asmLine "BC" [flagName flag, asmNum target]
  | .li rd imm => asmLine "LI" [asmReg rd, asmNum imm]
  | .mov rd rs1 cnt => asmLine "MOV" [asmReg rd, asmReg rs1, asmCount cnt]
  | .ld rd rs1 imm => asmLine "LD" [asmReg rd, asmNum imm ++ "(" ++ asmReg rs1 ++ ")"]
  | .st rd rs1 imm => asmLine "ST" [asmReg rd, asmNum imm ++ "(" ++ asmReg rs1 ++ ")"]
  | .moval rd => asmLine "MOVAL" [asmReg rd]
  | .movah rd => asmLine "MOVAH" [asmReg rd]
  | .setal rs1 => asmLine "SETAL" [asmReg rs1]
  | .setah rs1 => asmLine "SETAH" [asmReg rs1]
  | .csrr rd csr => asmLine "CSRR" [asmReg rd, asmNum csr]
  | .csrw rd csr => asmLine "CSRW" [asmNum csr, asmReg rd]
  | .add rd rs1 rs2 => asmLine "ADD" [asmReg rd, asmReg rs1, asmReg rs2]
  | .sub rd rs1 rs2 => asmLine "SUB" [asmReg rd, asmReg rs1, asmReg rs2]
  | .mul rs1 rs2 => asmLine "MUL" [asmReg rs1, asmReg rs2]
  | .shl1 rd rs1 => asmLine "SHL1" [asmReg rd, asmReg rs1]
  | .shr1 rd rs1 => asmLine "SHR1" [asmReg rd, asmReg rs1]
  | .shl rd rs1 rs2 => asmLine "SHL" [asmReg rd, asmReg rs1, asmReg rs2]
  | .shr rd rs1 rs2 => asmLine "SHR" [asmReg rd, asmReg rs1, asmReg rs2]
  | .cmp rs1 rs2 => asmLine "CMP" [asmReg rs1, asmReg rs2]
  | .bitlen rd rs1 => asmLine "BITLEN" [asmReg rd, asmReg rs1]
  | .btst rs1 rs2 => asmLine "BTST" [asmReg rs1, asmReg rs2]
  | .ctxdef c rs1 strat => asmLine "CTXDEF" [asmNum c, asmReg rs1, strategyName strat]
  | .redc rd c => asmLine "REDC" [asmReg rd, asmNum c]
  | .bred rd c => asmLine "BRED" [asmReg rd, asmNum c]
  | .modadd rd rs1 rs2 c => asmLine "MODADD" [asmReg rd, asmReg rs1, asmReg rs2, asmNum c]
  | .modsub rd rs1 rs2 c => asmLine "MODSUB" [asmReg rd, asmReg rs1, asmReg rs2, asmNum c]
  | .modmul rd rs1 rs2 c => asmLine "MODMUL" [asmReg rd, asmReg rs1, asmReg rs2, asmNum c]
  | .modinv rd rs1 c => asmLine "MODINV" [asmReg rd, asmReg rs1, asmNum c]
  | .modpow rd rs1 rs2 c => asmLine "MODPOW" [asmReg rd, asmReg rs1, asmReg rs2, asmNum c]
  | .jacobi rd rs1 rs2 => asmLine "JACOBI" [asmReg rd, asmReg rs1, asmReg rs2]
  | .fzero rd c => asmLine "FZERO" [asmReg rd, asmNum c]
  | .fone rd c => asmLine "FONE" [asmReg rd, asmNum c]
  | .ffromi rd rs1 c => asmLine "FFROMI" [asmReg rd, asmReg rs1, asmNum c]
  | .ftoi rd rs1 => asmLine "FTOI" [asmReg rd, asmReg rs1]
  | .fadd rd rs1 rs2 => asmLine "FADD" [asmReg rd, asmReg rs1, asmReg rs2]
  | .fsub rd rs1 rs2 => asmLine "FSUB" [asmReg rd, asmReg rs1, asmReg rs2]
  | .fneg rd rs1 => asmLine "FNEG" [asmReg rd, asmReg rs1]
  | .fmul rd rs1 rs2 => asmLine "FMUL" [asmReg rd, asmReg rs1, asmReg rs2]
  | .fsqr rd rs1 => asmLine "FSQR" [asmReg rd, asmReg rs1]
  | .finv rd rs1 => asmLine "FINV" [asmReg rd, asmReg rs1]
  | .fpow rd rs1 rs2 => asmLine "FPOW" [asmReg rd, asmReg rs1, asmReg rs2]
  | .fsqrt rd rs1 => asmLine "FSQRT" [asmReg rd, asmReg rs1]
  | .fisz rs1 => asmLine "FISZ" [asmReg rs1]
  | .feq rs1 rs2 => asmLine "FEQ" [asmReg rs1, asmReg rs2]
  | .fenc rd rs1 => asmLine "FENC" [asmReg rd, "(" ++ asmReg rs1 ++ ")"]
  | .fdec rd rs1 c => asmLine "FDEC" [asmReg rd, "(" ++ asmReg rs1 ++ ")", asmNum c]
  | .fbinv rd rs1 cnt => asmLine "FBINV" [asmReg rd, asmReg rs1, asmCount cnt]
  | .twrdef t rs1 rs2 deg base => asmLine "TWRDEF" [asmNum t, asmReg rs1, asmReg rs2, degreeName deg, fieldName base]
  | .ezero rd t => asmLine "EZERO" [asmReg rd, asmNum t]
  | .eone rd t => asmLine "EONE" [asmReg rd, asmNum t]
  | .eadd rd rs1 rs2 t => asmLine "EADD" [asmReg rd, asmReg rs1, asmReg rs2, asmNum t]
  | .esub rd rs1 rs2 t => asmLine "ESUB" [asmReg rd, asmReg rs1, asmReg rs2, asmNum t]
  | .eneg rd rs1 t => asmLine "ENEG" [asmReg rd, asmReg rs1, asmNum t]
  | .emul rd rs1 rs2 t => asmLine "EMUL" [asmReg rd, asmReg rs1, asmReg rs2, asmNum t]
  | .esqr rd rs1 t => asmLine "ESQR" [asmReg rd, asmReg rs1, asmNum t]
  | .einv rd rs1 t => asmLine "EINV" [asmReg rd, asmReg rs1, asmNum t]
  | .epow rd rs1 rs2 t => asmLine "EPOW" [asmReg rd, asmReg rs1, asmReg rs2, asmNum t]
  | .eisz rs1 t => asmLine "EISZ" [asmReg rs1, asmNum t]
  | .eeq rs1 rs2 t => asmLine "EEQ" [asmReg rs1, asmReg rs2, asmNum t]
  | .econj rd rs1 t => asmLine "ECONJ" [asmReg rd, asmReg rs1, asmNum t]
  | .efrob rd rs1 j t => asmLine "EFROB" [asmReg rd, asmReg rs1, asmNum j, asmNum t]
  | .ebinv rd rs1 cnt t => asmLine "EBINV" [asmReg rd, asmReg rs1, asmCount cnt, asmNum t]
  | .crvdef i rs1 rs2 twist fd => asmLine "CRVDEF" [asmNum i, asmReg rs1, asmReg rs2, twistName twist, fieldName fd]
  | .plift rd rs1 i => asmLine "PLIFT" [asmReg rd, asmReg rs1, asmNum i]
  | .pdbl rd rs1 i => asmLine "PDBL" [asmReg rd, asmReg rs1, asmNum i]
  | .padd rd rs1 rs2 i => asmLine "PADD" [asmReg rd, asmReg rs1, asmReg rs2, asmNum i]
  | .pmadd rd rs1 rs2 i => asmLine "PMADD" [asmReg rd, asmReg rs1, asmReg rs2, asmNum i]
  | .pneg rd rs1 i => asmLine "PNEG" [asmReg rd, asmReg rs1, asmNum i]
  | .pisinf rs1 i => asmLine "PISINF" [asmReg rs1, asmNum i]
  | .paff rd rs1 i => asmLine "PAFF" [asmReg rd, asmReg rs1, asmNum i]
  | .ponc rs1 i => asmLine "PONC" [asmReg rs1, asmNum i]
  | .peq rs1 rs2 i => asmLine "PEQ" [asmReg rs1, asmReg rs2, asmNum i]
  | .psmul rd rs1 rs2 i => asmLine "PSMUL" [asmReg rd, asmReg rs1, asmReg rs2, asmNum i]
  | .psmul2 rd rs1 rs2 i => asmLine "PSMUL2" [asmReg rd, asmReg rs1, asmReg rs2, asmNum i]
  | .pinf rd i => asmLine "PINF" [asmReg rd, asmNum i]
  | .wnafenc rd rs1 rs2 w => asmLine "WNAFENC" [asmReg rd, asmReg rs1, "(" ++ asmReg rs2 ++ ")", asmNum w]
  | .wnafdec rd rs1 rs2 => asmLine "WNAFDEC" [asmReg rd, asmReg rs1, "(" ++ asmReg rs2 ++ ")"]
  | .prgdef g1 g2 neg rs1 rs2 t => asmLine "PRGDEF" [asmNum g1, asmNum g2, signName neg, asmReg rs1, asmReg rs2, asmNum t]
  | .precg1 slot rs1 => asmLine "PRECG1" [asmNum slot, asmReg rs1]
  | .precg2 slot rs1 => asmLine "PRECG2" [asmNum slot, asmReg rs1]
  | .mloop rd s1 s2 => asmLine "MLOOP" [asmReg rd, asmNum s1, asmNum s2]
  | .dmloop rd s1a s2a s1b s2b => asmLine "DMLOOP" [asmReg rd, asmNum s1a, asmNum s2a, asmNum s1b, asmNum s2b]
  | .fexp rd rs1 => asmLine "FEXP" [asmReg rd, asmReg rs1]
  | .rpair rd rs1 rs2 => asmLine "RPAIR" [asmReg rd, asmReg rs1, asmReg rs2]

/-- The shorthands of the assembler (R110). -/
inductive Pseudo where
  /-- `MOV xd, xs` for `MOV xd, xs, 1`. -/
  | mov (rd rs1 : RegIx)
  /-- `BEQ target` for `BS Z, target`. -/
  | beq (target : Imm18)
  /-- `BNE target` for `BC Z, target`. -/
  | bne (target : Imm18)
  /-- `BLT target` for `BS L, target`. -/
  | blt (target : Imm18)
  /-- `BGE target` for `BC L, target`. -/
  | bge (target : Imm18)
  /-- `BCS target` for `BS C, target`. -/
  | bcs (target : Imm18)
  /-- `BCC target` for `BC C, target`. -/
  | bcc (target : Imm18)
  /-- `BT target` for `BS T, target`. -/
  | bt (target : Imm18)
  /-- `BF target` for `BC T, target`. -/
  | bf (target : Imm18)
deriving DecidableEq, Repr

/-- The one command a shorthand stands for (R110). -/
def Pseudo.expand : Pseudo → Instr
  | .mov rd rs1 => .mov rd rs1 0#6
  | .beq target => .bs .z target
  | .bne target => .bc .z target
  | .blt target => .bs .l target
  | .bge target => .bc .l target
  | .bcs target => .bs .c target
  | .bcc target => .bc .c target
  | .bt target => .bs .t target
  | .bf target => .bc .t target

end Sys2Proof
end

