-- ==== Sys2Proof/WellFormed.lean ====
section
/-! DEFINITION. The four conditions on field values that the masks of the opcode map do not express (30_encoding.md
R104): the CSR numbers of CSRR and CSRW, the prime-field number in a field designator, and the twist code of CRVDEF. A
command that breaks one raises IllegalCommand as its first check (R143, R144, R242, R270). Log 7. -/

namespace Sys2Proof

/-- No field of the command holds a value that its rule calls illegal. -/
def Instr.wellFormed : Instr → Bool
  | .csrr _ csr => csrReadable csr
  | .csrw _ csr => csrWritable csr
  | .twrdef _ _ _ _ base => base.legal
  | .crvdef _ _ _ twist fd => twistLegal twist && fd.legal
  | .nop | .halt | .jmp _ | .bs _ _ | .bc _ _ | .li _ _ | .mov _ _ _ | .ld _ _ _ | .st _ _ _ | .moval _
  | .movah _ | .setal _ | .setah _ | .add _ _ _ | .sub _ _ _ | .mul _ _ | .shl1 _ _ | .shr1 _ _ | .shl _ _ _
  | .shr _ _ _ | .cmp _ _ | .bitlen _ _ | .btst _ _ | .ctxdef _ _ _ | .redc _ _ | .bred _ _ | .modadd _ _ _ _
  | .modsub _ _ _ _ | .modmul _ _ _ _ | .modinv _ _ _ | .modpow _ _ _ _ | .jacobi _ _ _ | .fzero _ _
  | .fone _ _ | .ffromi _ _ _ | .ftoi _ _ | .fadd _ _ _ | .fsub _ _ _ | .fneg _ _ | .fmul _ _ _ | .fsqr _ _
  | .finv _ _ | .fpow _ _ _ | .fsqrt _ _ | .fisz _ | .feq _ _ | .fenc _ _ | .fdec _ _ _ | .fbinv _ _ _
  | .ezero _ _ | .eone _ _ | .eadd _ _ _ _ | .esub _ _ _ _ | .eneg _ _ _ | .emul _ _ _ _ | .esqr _ _ _
  | .einv _ _ _ | .epow _ _ _ _ | .eisz _ _ | .eeq _ _ _ | .econj _ _ _ | .efrob _ _ _ _ | .ebinv _ _ _ _
  | .plift _ _ _ | .pdbl _ _ _ | .padd _ _ _ _ | .pmadd _ _ _ _ | .pneg _ _ _ | .pisinf _ _ | .paff _ _ _
  | .ponc _ _ | .peq _ _ _ | .psmul _ _ _ _ | .psmul2 _ _ _ _ | .pinf _ _ | .wnafenc _ _ _ _ | .wnafdec _ _ _
  | .prgdef _ _ _ _ _ _ | .precg1 _ _ | .precg2 _ _ | .mloop _ _ _ | .dmloop _ _ _ _ _ | .fexp _ _
  | .rpair _ _ _ => true

end Sys2Proof
end

