-- ==== Sys2Proof/Tests/Slice0.lean ====
section
/-! SUPPORT. Tests. Expected values are the worked examples of spec/ (the rule is named in each comment), on the configurations
those examples use: W = 64, N = 1, the modulus 2^64 - 59, and F103 with its towers, curve and toy pairing. Then, for every
obligation with hypotheses, a state and operands that meet them. -/

namespace Sys2Proof.Tests

open Sys2Proof Sys2Proof.Machine

set_option Elab.async false

/-! ### Small states -/

/-- The state after a command. -/
def after (i : Instr) (s : State) : State :=
  match exec i s with
  | .next t => t
  | .fault _ => s
  | .refused _ => s

/-- The state after a step. -/
def stepped (s : State) : State :=
  match step s with
  | .next t => t
  | .fault _ => s
  | .refused _ => s

/-- `s` with some registers set. -/
def load (s : State) : List (Nat × Nat × Tag) → State
  | [] => s
  | (n, v, g) :: rest => load (s.setReg n v g) rest

/-- Running, with context 0 = Barrett 103, context 1 = Montgomery 2^64 - 59, context 3 = Barrett 2^64 - 59. -/
def bare : State :=
  { State.reset with
    run := .run
    ctx := (((Vector.replicate 4 none).setIfInBounds 0 (some (makeCtx Config.default .barr 103))).setIfInBounds 1
      (some (makeCtx Config.default .mont (2 ^ 64 - 59)))).setIfInBounds 3
      (some (makeCtx Config.default .barr (2 ^ 64 - 59))) }

/-- `bare` with Fp2 = F103[x]/(x^2 + 1), Fp3 = F103[x]/(x^3 - 2) and Fp4 over Fp2 as towers 0, 1 and 2 (R242). -/
def towers : State :=
  ((bare.setTwr 0#3
    { base := .prime 0#2, deg := .quadratic, beta := [102], gamma := [[102]], root := 0#2, k := 2 }).setTwr 1#3
    { base := .prime 0#2, deg := .cubic, beta := [2], gamma := [[46], [56]], root := 0#2, k := 3 }).setTwr 2#3
    { base := .tower 0#3, deg := .quadratic, beta := [2, 1], gamma := [[12, 24]], root := 0#2, k := 4 }

/-- `towers` with the curve y^2 = x^3 + x over F103 as curve 0, as its twist of type D as curve 1 (section 5 of
47_pairing.md), and over Fp2 as curve 2. -/
def curves : State :=
  ((towers.setCrv 0#2 { fd := .prime 0#2, a := [1], b := [0], twist := .noTwist, r := 13, sbits := 4 }).setCrv 1#2
    { fd := .prime 0#2, a := [1], b := [0], twist := .typeD, r := 13, sbits := 4 }).setCrv 2#2
    { fd := .tower 0#3, a := [1, 0], b := [0, 0], twist := .noTwist, r := 13, sbits := 4 }

/-- `curves` with the toy pairing of section 5 of 47_pairing.md: L = 103, omega = (0, 1), E = 816. -/
def toy : State :=
  curves.setPrg { g1 := 0#2, g2 := 1#2, twr := 0#3, neg := false, loop := 103, omega := [0, 1], e := 816 }

/-- `s` with the elements of section 5 of 47_pairing.md and of 45_curve.md in registers: the pair and point (49, 81, 1) from
x10 and x12, twice it from x15, the G2 point (68, 91, 1) from x20, infinity from x23, (0, 1) from x8. -/
def points (s : State) : State :=
  load s [(8, 0, .fp 0#2), (9, 1, .fp 0#2), (10, 49, .fp 0#2), (11, 81, .fp 0#2), (12, 49, .fp 0#2), (13, 81, .fp 0#2),
    (14, 1, .fp 0#2), (15, 34, .fp 0#2), (16, 29, .fp 0#2), (17, 59, .fp 0#2), (20, 68, .fp 0#2), (21, 91, .fp 0#2),
    (22, 1, .fp 0#2), (23, 0, .fp 0#2), (24, 1, .fp 0#2), (25, 0, .fp 0#2), (3, 13, .raw), (4, 5, .raw), (5, 3, .raw),
    (6, 4, .raw), (7, 103, .raw)]

/-- The toy pairing with both precomputations of section 5 of 47_pairing.md in slots 0 and 1. -/
def ready : State := after (.precg2 1#2 20#6) (after (.precg1 0#2 12#6) (points toy))

/-- The values of `n` registers. -/
def vals (s : State) (r n : Nat) : List Nat := (s.regRange r n).map (fun q => q.val)

/-- Elements of F103 in registers from `n` on. -/
def elems (s : State) (n : Nat) (vs : List Nat) : State := s.setRegs n (vs.map (fun v => { val := v, tag := .fp 0#2 }))

/-! ### Well-formedness: each of the four checks refuses an ill-formed command, and so does the machine -/

theorem test_wellFormed_csrr : (Instr.csrr 0#6 9#18).wellFormed = false ∧ (after (.csrr 0#6 9#18) bare).err = 7#8 := by
  decide

theorem test_wellFormed_csrw : (Instr.csrw 0#6 0#18).wellFormed = false ∧ (after (.csrw 0#6 0#18) bare).err = 7#8 := by
  decide

theorem test_wellFormed_twrdef :
    (Instr.twrdef 0#3 0#6 0#6 .quadratic ⟨false, 5#3⟩).wellFormed = false ∧
    (after (.twrdef 0#3 0#6 0#6 .quadratic ⟨false, 5#3⟩) bare).err = 7#8 := by
  decide

theorem test_wellFormed_crvdef :
    (Instr.crvdef 0#2 0#6 0#6 3#2 ⟨false, 0#3⟩).wellFormed = false ∧
    (Instr.crvdef 0#2 0#6 0#6 0#2 ⟨false, 4#3⟩).wellFormed = false ∧
    (after (.crvdef 0#2 0#6 0#6 3#2 ⟨false, 0#3⟩) bare).err = 7#8 := by
  decide

/-! ### Decoding -/

/-- One word of each command of the family, put together from the field positions of R102 and R104. -/
theorem test_decode_control :
    decode 0x00000000#32 = .ok (.nop) ∧
    decode 0x01000000#32 = .ok (.halt) ∧
    decode 0x0202A5C3#32 = .ok (.jmp 173507#18) ∧
    decode 0x030AA5C3#32 = .ok (.bs .l 173507#18) ∧
    decode 0x040AA5C3#32 = .ok (.bc .l 173507#18) ∧
    decode 0x05B6A5C3#32 = .ok (.li 45#6 173507#18) ∧
    decode 0x06B53035#32 = .ok (.mov 45#6 19#6 53#6) ∧
    decode 0x07B53A5C#32 = .ok (.ld 45#6 19#6 2652#12) ∧
    decode 0x08B53A5C#32 = .ok (.st 45#6 19#6 2652#12) ∧
    decode 0x09B40000#32 = .ok (.moval 45#6) ∧
    decode 0x0AB40000#32 = .ok (.movah 45#6) ∧
    decode 0x0B013000#32 = .ok (.setal 19#6) ∧
    decode 0x0C013000#32 = .ok (.setah 19#6) ∧
    decode 0x0DB40007#32 = .ok (.csrr 45#6 7#18) ∧
    decode 0x0EB40007#32 = .ok (.csrw 45#6 7#18) := by
  decide

/-- One word of each command of the family, put together from the field positions of R102 and R104. -/
theorem test_decode_integer :
    decode 0x10B53980#32 = .ok (.add 45#6 19#6 38#6) ∧
    decode 0x11B53980#32 = .ok (.sub 45#6 19#6 38#6) ∧
    decode 0x12013980#32 = .ok (.mul 19#6 38#6) ∧
    decode 0x13B53000#32 = .ok (.shl1 45#6 19#6) ∧
    decode 0x14B53000#32 = .ok (.shr1 45#6 19#6) ∧
    decode 0x15B53980#32 = .ok (.shl 45#6 19#6 38#6) ∧
    decode 0x16B53980#32 = .ok (.shr 45#6 19#6 38#6) ∧
    decode 0x17013980#32 = .ok (.cmp 19#6 38#6) ∧
    decode 0x18B53000#32 = .ok (.bitlen 45#6 19#6) ∧
    decode 0x19013980#32 = .ok (.btst 19#6 38#6) := by
  decide

/-- One word of each command of the family, put together from the field positions of R102 and R104. -/
theorem test_decode_modular :
    decode 0x20013006#32 = .ok (.ctxdef 2#2 19#6 .barr) ∧
    decode 0x21B40002#32 = .ok (.redc 45#6 2#2) ∧
    decode 0x22B40002#32 = .ok (.bred 45#6 2#2) ∧
    decode 0x23B53982#32 = .ok (.modadd 45#6 19#6 38#6 2#2) ∧
    decode 0x24B53982#32 = .ok (.modsub 45#6 19#6 38#6 2#2) ∧
    decode 0x25B53982#32 = .ok (.modmul 45#6 19#6 38#6 2#2) ∧
    decode 0x26B53002#32 = .ok (.modinv 45#6 19#6 2#2) ∧
    decode 0x27B53982#32 = .ok (.modpow 45#6 19#6 38#6 2#2) ∧
    decode 0x28B53980#32 = .ok (.jacobi 45#6 19#6 38#6) := by
  decide

/-- One word of each command of the family, put together from the field positions of R102 and R104. -/
theorem test_decode_prime_field :
    decode 0x30B40002#32 = .ok (.fzero 45#6 2#2) ∧
    decode 0x31B40002#32 = .ok (.fone 45#6 2#2) ∧
    decode 0x32B53002#32 = .ok (.ffromi 45#6 19#6 2#2) ∧
    decode 0x33B53000#32 = .ok (.ftoi 45#6 19#6) ∧
    decode 0x34B53980#32 = .ok (.fadd 45#6 19#6 38#6) ∧
    decode 0x35B53980#32 = .ok (.fsub 45#6 19#6 38#6) ∧
    decode 0x36B53000#32 = .ok (.fneg 45#6 19#6) ∧
    decode 0x37B53980#32 = .ok (.fmul 45#6 19#6 38#6) ∧
    decode 0x38B53000#32 = .ok (.fsqr 45#6 19#6) ∧
    decode 0x39B53000#32 = .ok (.finv 45#6 19#6) ∧
    decode 0x3AB53980#32 = .ok (.fpow 45#6 19#6 38#6) ∧
    decode 0x3BB53000#32 = .ok (.fsqrt 45#6 19#6) ∧
    decode 0x3C013000#32 = .ok (.fisz 19#6) ∧
    decode 0x3D013980#32 = .ok (.feq 19#6 38#6) ∧
    decode 0x3EB53000#32 = .ok (.fenc 45#6 19#6) ∧
    decode 0x3FB53002#32 = .ok (.fdec 45#6 19#6 2#2) ∧
    decode 0x40B53035#32 = .ok (.fbinv 45#6 19#6 53#6) := by
  decide

/-- One word of each command of the family, put together from the field positions of R102 and R104. -/
theorem test_decode_extension :
    decode 0x5015399B#32 = .ok (.twrdef 5#3 19#6 38#6 .cubic ⟨true, 6#3⟩) ∧
    decode 0x51B40005#32 = .ok (.ezero 45#6 5#3) ∧
    decode 0x52B40005#32 = .ok (.eone 45#6 5#3) ∧
    decode 0x53B53985#32 = .ok (.eadd 45#6 19#6 38#6 5#3) ∧
    decode 0x54B53985#32 = .ok (.esub 45#6 19#6 38#6 5#3) ∧
    decode 0x55B53005#32 = .ok (.eneg 45#6 19#6 5#3) ∧
    decode 0x56B53985#32 = .ok (.emul 45#6 19#6 38#6 5#3) ∧
    decode 0x57B53005#32 = .ok (.esqr 45#6 19#6 5#3) ∧
    decode 0x58B53005#32 = .ok (.einv 45#6 19#6 5#3) ∧
    decode 0x59B53985#32 = .ok (.epow 45#6 19#6 38#6 5#3) ∧
    decode 0x5A013005#32 = .ok (.eisz 19#6 5#3) ∧
    decode 0x5B013985#32 = .ok (.eeq 19#6 38#6 5#3) ∧
    decode 0x5CB53005#32 = .ok (.econj 45#6 19#6 5#3) ∧
    decode 0x5DB53A85#32 = .ok (.efrob 45#6 19#6 42#6 5#3) ∧
    decode 0x5EB53D45#32 = .ok (.ebinv 45#6 19#6 53#6 5#3) := by
  decide

/-- One word of each command of the family, put together from the field positions of R102 and R104. -/
theorem test_decode_curve :
    decode 0x600D39AE#32 = .ok (.crvdef 3#2 19#6 38#6 2#2 ⟨true, 5#3⟩) ∧
    decode 0x61B53003#32 = .ok (.plift 45#6 19#6 3#2) ∧
    decode 0x62B53003#32 = .ok (.pdbl 45#6 19#6 3#2) ∧
    decode 0x63B53983#32 = .ok (.padd 45#6 19#6 38#6 3#2) ∧
    decode 0x64B53983#32 = .ok (.pmadd 45#6 19#6 38#6 3#2) ∧
    decode 0x65B53003#32 = .ok (.pneg 45#6 19#6 3#2) ∧
    decode 0x66013003#32 = .ok (.pisinf 19#6 3#2) ∧
    decode 0x67B53003#32 = .ok (.paff 45#6 19#6 3#2) ∧
    decode 0x68013003#32 = .ok (.ponc 19#6 3#2) ∧
    decode 0x69013983#32 = .ok (.peq 19#6 38#6 3#2) ∧
    decode 0x6AB53983#32 = .ok (.psmul 45#6 19#6 38#6 3#2) ∧
    decode 0x6BB53983#32 = .ok (.psmul2 45#6 19#6 38#6 3#2) ∧
    decode 0x6CB40003#32 = .ok (.pinf 45#6 3#2) := by
  decide

/-- One word of each command of the family, put together from the field positions of R102 and R104. -/
theorem test_decode_wnaf :
    decode 0x70B5398B#32 = .ok (.wnafenc 45#6 19#6 38#6 11#4) ∧
    decode 0x71B53980#32 = .ok (.wnafdec 45#6 19#6 38#6) := by
  decide

/-- One word of each command of the family, put together from the field positions of R102 and R104. -/
theorem test_decode_pairing :
    decode 0x80593985#32 = .ok (.prgdef 2#2 1#2 true 19#6 38#6 5#3) ∧
    decode 0x810D3000#32 = .ok (.precg1 3#2 19#6) ∧
    decode 0x820D3000#32 = .ok (.precg2 3#2 19#6) ∧
    decode 0x83B46000#32 = .ok (.mloop 45#6 2#2 1#2) ∧
    decode 0x84B460C0#32 = .ok (.dmloop 45#6 2#2 1#2 3#2 0#2) ∧
    decode 0x85B53000#32 = .ok (.fexp 45#6 19#6) ∧
    decode 0x86B53980#32 = .ok (.rpair 45#6 19#6 38#6) := by
  decide

/-- The worked encodings of section 8 of 30_encoding.md, from word to text (R109), and a shorthand (R110). -/
theorem test_assembler :
    (∀ q ∈ [(0x01000000, "HALT"), (0x05140064, "LI x5, 100"), (0x070C2010, "LD x3, 16(x2)"), (0x030C0007, "BS T, 7"),
        (0x06294002, "MOV x10, x20, 3"), (0x25101080, "MODMUL x4, x1, x2, 0"), (0x20001005, "CTXDEF 1, x1, BARR"),
        (0x5008A306, "TWRDEF 2, x10, x12, 2, T(1)"), (0x60054245, "CRVDEF 1, x20, x9, D, T(0)"),
        (0x80508780, "PRGDEF 0, 1, NEG, x8, x30, 0"), (0x83A04000, "MLOOP x40, 0, 1")],
      (match decode (BitVec.ofNat 32 q.1) with
        | .ok i => i.asm
        | .error _ => "") = q.2) ∧
    encode (Pseudo.bf 15#18).expand = 0x040C000F#32 := by
  decide +kernel

/-! ### Control, move, memory and system commands -/

/-- R130. -/
theorem test_nop : (after .nop { bare with pc := 3#19 }).pc = 4#19 := by decide

/-- R131. -/
theorem test_halt : (after .halt { bare with pc := 9#19 }).pc = 9#19 ∧ (after .halt bare).run = .halted := by decide

/-- R132. -/
theorem test_jmp : (after (.jmp 0x20#18) { bare with pc := 5#19 }).pc = 32#19 := by decide

/-- R133, taken and not taken. -/
theorem test_bs :
    (after (.bs .l 12#18) { bare with l := true }).pc = 12#19 ∧ (after (.bs .z 12#18) { bare with l := true }).pc = 1#19 := by
  decide

/-- R134, taken and not taken. -/
theorem test_bc : (after (.bc .t 30#18) bare).pc = 30#19 ∧ (after (.bc .t 30#18) { bare with t := true }).pc = 1#19 := by
  decide

/-- R135. -/
theorem test_li : (after (.li 5#6 100#18) bare).regAt 5 = { val := 100, tag := .raw } := by decide

/-- R136, and overlapping ranges of R395. -/
theorem test_mov :
    (after (.mov 11#6 10#6 2#6) (points bare)).regRange 11 3 = (points bare).regRange 10 3 ∧
    (after (.mov 62#6 10#6 2#6) (points bare)).err = 7#8 := by
  decide +kernel

/-- R137. -/
theorem test_ld :
    (after (.ld 3#6 2#6 16#12)
      ((load bare [(2, 0x100, .raw)]).putBytes 0x110 [0xC5#8, 0xFF#8, 0xFF#8, 0xFF#8, 0xFF#8, 0xFF#8, 0xFF#8, 0xFF#8])).val 3#6
      = 0xFFFFFFFFFFFFFFC5 := by
  decide

/-- R138. -/
theorem test_st :
    (after (.st 1#6 2#6 8#12) (load bare [(1, 0x106, .raw)])).bytesAt 8 8 = [6#8, 1#8, 0#8, 0#8, 0#8, 0#8, 0#8, 0#8] := by
  decide

/-- R73: the last admitted address and the first that is not. -/
theorem test_st_bounds :
    (after (.st 1#6 2#6 0#12) (load bare [(2, 65528, .raw)])).pc = 1#19 ∧
    (after (.st 1#6 2#6 1#12) (load bare [(2, 65528, .raw)])).err = 8#8 ∧
    (after (.st 1#6 2#6 1#12) (load bare [(2, 65528, .raw)])).einfo = 65529#32 := by
  decide

/-- R139. -/
theorem test_moval : (after (.moval 3#6) { bare with acc := 2 ^ 64 + 0xFFFFFFFFFFFFFFFE }).val 3#6 = 0xFFFFFFFFFFFFFFFE := by
  decide

/-- R140. -/
theorem test_movah : (after (.movah 4#6) { bare with acc := 2 ^ 64 + 0xFFFFFFFFFFFFFFFE }).val 4#6 = 1 := by decide

/-- R141. -/
theorem test_setal : (after (.setal 1#6) (load { bare with acc := 2 ^ 64 + 5 } [(1, 7, .raw)])).acc = 2 ^ 64 + 7 := by decide

/-- R142. -/
theorem test_setah : (after (.setah 2#6) (load { bare with acc := 7 } [(2, 1, .raw)])).acc = 2 ^ 64 + 7 := by decide

/-- R143, R37: CFG with the defaults; DEFV (R46). -/
theorem test_csrr :
    (after (.csrr 1#6 1#18) bare).val 1#6 = 0x7FFF0140 ∧ (after (.csrr 1#6 10#18) toy).val 1#6 = 0x1707B := by
  decide

/-- R144. -/
theorem test_csrw :
    (after (.csrw 4#6 7#18) (load bare [(4, 5, .raw)])).wnafw = 5#4 ∧
    (after (.csrw 4#6 6#18) (load bare [(4, 16, .raw)])).err = 6#8 := by
  decide

/-! ### Integer commands -/

/-- R161. -/
theorem test_add :
    (after (.add 3#6 1#6 2#6) (load bare [(1, 2 ^ 64 - 1, .raw), (2, 2 ^ 64 - 1, .raw)])).val 3#6 = 0xFFFFFFFFFFFFFFFE ∧
    (after (.add 3#6 1#6 2#6) (load bare [(1, 2 ^ 64 - 1, .raw), (2, 2 ^ 64 - 1, .raw)])).c = true := by
  decide

/-- R162. -/
theorem test_sub :
    (after (.sub 3#6 1#6 2#6) (load bare [(1, 3, .raw), (2, 5, .raw)])).val 3#6 = 0xFFFFFFFFFFFFFFFE ∧
    (after (.sub 3#6 1#6 2#6) (load bare [(1, 3, .raw), (2, 5, .raw)])).c = true := by
  decide

/-- R163. -/
theorem test_mul :
    (after (.mul 1#6 1#6) (load bare [(1, 2 ^ 64 - 1, .raw)])).acc = 0xFFFFFFFFFFFFFFFE0000000000000001 := by decide

/-- R164. -/
theorem test_shl1 :
    (after (.shl1 2#6 1#6) (load bare [(1, 0x8000000000000001, .raw)])).val 2#6 = 2 ∧
    (after (.shl1 2#6 1#6) (load bare [(1, 0x8000000000000001, .raw)])).c = true := by
  decide

/-- R165. -/
theorem test_shr1 :
    (after (.shr1 2#6 1#6) (load bare [(1, 5, .raw)])).val 2#6 = 2 ∧
    (after (.shr1 2#6 1#6) (load bare [(1, 5, .raw)])).c = true := by
  decide

/-- R166, also a count of BITS. -/
theorem test_shl :
    (after (.shl 3#6 1#6 2#6) (load bare [(1, 3, .raw), (2, 63, .raw)])).val 3#6 = 0x8000000000000000 ∧
    (after (.shl 3#6 1#6 2#6) (load bare [(1, 1, .raw), (2, 64, .raw)])).c = true := by
  decide

/-- R167. -/
theorem test_shr :
    (after (.shr 3#6 1#6 2#6) (load bare [(1, 0x18, .raw), (2, 4, .raw)])).val 3#6 = 1 ∧
    (after (.shr 3#6 1#6 2#6) (load bare [(1, 0x18, .raw), (2, 4, .raw)])).c = true := by
  decide

/-- R168. -/
theorem test_cmp :
    (after (.cmp 1#6 2#6) (load bare [(1, 3, .raw), (2, 5, .raw)])).l = true ∧
    (after (.cmp 1#6 2#6) (load bare [(1, 3, .raw), (2, 5, .raw)])).z = false := by
  decide

/-- R169. -/
theorem test_bitlen :
    (after (.bitlen 2#6 1#6) (load bare [(1, 0x100, .raw)])).val 2#6 = 9 ∧ (after (.bitlen 2#6 1#6) bare).val 2#6 = 0 := by
  decide

/-- R170. -/
theorem test_btst :
    (after (.btst 1#6 2#6) (load bare [(1, 5, .raw), (2, 2, .raw)])).t = true ∧
    (after (.btst 1#6 2#6) (load bare [(1, 5, .raw), (2, 64, .raw)])).t = false := by
  decide

/-! ### Modular commands -/

/-- R180, R181: the constants of the example. -/
theorem test_ctxdef :
    (after (.ctxdef 2#2 1#6 .mont) (load bare [(1, 0xFFFFFFFFFFFFFFC5, .raw)])).ctxAt 2#2 =
      some { m := 0xFFFFFFFFFFFFFFC5, mbits := 64, k := 1, red := .montgomery 0xCBEEA4E1A08AD8F3 3481 } := by
  decide

/-- R182: the constant of the example; R180: an even Montgomery modulus. -/
theorem test_ctxdef_barrett :
    bare.ctxAt 3#2 = some { m := 0xFFFFFFFFFFFFFFC5, mbits := 64, k := 1, red := .barrett 0x1000000000000003B } ∧
    (after (.ctxdef 2#2 1#6 .mont) (load bare [(1, 8, .raw)])).err = 6#8 := by
  decide

/-- R183. -/
theorem test_redc :
    (after (.redc 3#6 1#2) { bare with acc := 20886 }).val 3#6 = 354 ∧
    (after (.redc 3#6 1#2) { bare with acc := 354 }).val 3#6 = 6 := by
  decide

/-- R184. -/
theorem test_bred : (after (.bred 3#6 3#2) { bare with acc := 2 ^ 127 + 12345 }).val 3#6 = 0x80000000000036E8 := by decide

/-- R185. -/
theorem test_modadd :
    (after (.modadd 3#6 1#6 2#6 1#2) (load bare [(1, 0xFFFFFFFFFFFFFFC4, .raw), (2, 2, .raw)])).val 3#6 = 1 := by decide

/-- R186. -/
theorem test_modsub :
    (after (.modsub 3#6 1#6 2#6 1#2) (load bare [(1, 2, .raw), (2, 3, .raw)])).val 3#6 = 0xFFFFFFFFFFFFFFC4 := by decide

/-- R187. -/
theorem test_modmul :
    (after (.modmul 4#6 1#6 2#6 1#2) (load bare [(1, 2, .raw), (2, 3, .raw)])).val 4#6 = 6 ∧
    (after (.modmul 4#6 1#6 2#6 0#2) (load bare [(1, 103, .raw)])).err = 2#8 := by
  decide

/-- R188. -/
theorem test_modinv :
    (after (.modinv 2#6 1#6 1#2) (load bare [(1, 6, .raw)])).val 2#6 = 0x2AAAAAAAAAAAAAA1 ∧
    (after (.modinv 2#6 1#6 1#2) bare).err = 1#8 := by
  decide

/-- R190. -/
theorem test_modpow :
    (after (.modpow 3#6 1#6 2#6 1#2) (load bare [(1, 3, .raw), (2, 0xFFFFFFFFFFFFFFC4, .raw)])).val 3#6 = 1 ∧
    (after (.modpow 3#6 1#6 2#6 1#2) bare).val 3#6 = 1 := by
  decide +kernel

/-- R189. -/
theorem test_jacobi :
    (after (.jacobi 3#6 1#6 2#6) (load bare [(1, 3, .raw), (2, 7, .raw)])).val 3#6 = 0xFFFFFFFFFFFFFFFF ∧
    (after (.jacobi 3#6 1#6 2#6) (load bare [(1, 1001, .raw), (2, 9907, .raw)])).l = true := by
  decide

/-! ### Prime-field commands -/

/-- R211. -/
theorem test_fzero : (after (.fzero 1#6 1#2) bare).regAt 1 = { val := 0, tag := .fp 1#2 } := by decide

/-- R212. -/
theorem test_fone : (after (.fone 1#6 1#2) bare).regAt 1 = { val := 59, tag := .fp 1#2 } := by decide

/-- R213. -/
theorem test_ffromi : (after (.ffromi 2#6 1#6 1#2) (load bare [(1, 2, .raw)])).regAt 2 = { val := 0x76, tag := .fp 1#2 } := by
  decide

/-- R214. -/
theorem test_ftoi : (after (.ftoi 3#6 2#6) (load bare [(2, 0x76, .fp 1#2)])).regAt 3 = { val := 2, tag := .raw } := by decide

/-- The Montgomery forms of 2, 3 and 6 in x2, x3 and x4 (R213, R218). -/
def mont : State := load bare [(2, 0x76, .fp 1#2), (3, 0xB1, .fp 1#2), (4, 0x162, .fp 1#2)]

/-- R215. -/
theorem test_fadd : (after (.fadd 4#6 2#6 3#6) mont).regAt 4 = { val := 0x127, tag := .fp 1#2 } := by decide

/-- R216. -/
theorem test_fsub : (after (.fsub 4#6 2#6 3#6) mont).val 4#6 = 0xFFFFFFFFFFFFFF8A := by decide

/-- R217. -/
theorem test_fneg : (after (.fneg 4#6 2#6) mont).val 4#6 = 0xFFFFFFFFFFFFFF4F := by decide

/-- R218, and the tag check of R210. -/
theorem test_fmul : (after (.fmul 4#6 2#6 3#6) mont).val 4#6 = 0x162 ∧ (after (.fmul 4#6 2#6 5#6) mont).err = 5#8 := by decide

/-- R219. -/
theorem test_fsqr : (after (.fsqr 4#6 3#6) mont).val 4#6 = 0x213 := by decide

/-- R220. -/
theorem test_finv : (after (.finv 5#6 4#6) mont).val 5#6 = 0xD55555555555552E := by decide

/-- R221. -/
theorem test_fpow : (after (.fpow 5#6 2#6 1#6) (load mont [(1, 10, .raw)])).val 5#6 = 0xEC00 := by decide

/-- R222: the fast-path examples over 103. -/
theorem test_fsqrt :
    (after (.fsqrt 1#6 10#6) (elems bare 10 [13])).val 1#6 = 42 ∧
    (after (.fsqrt 10#6 10#6) { (elems bare 10 [3]) with t := true }).t = false := by
  decide

/-- R224. -/
theorem test_fisz : (after (.fisz 10#6) (elems bare 10 [0])).t = true ∧ (after (.fisz 2#6) mont).t = false := by decide

/-- R225. -/
theorem test_feq : (after (.feq 4#6 5#6) (load mont [(5, 0x162, .fp 1#2)])).t = true ∧ (after (.feq 4#6 3#6) mont).t = false := by
  decide

/-- R226. -/
theorem test_fenc :
    (after (.fenc 4#6 9#6) (load mont [(9, 0x200, .raw)])).bytesAt 0x200 8 =
      [0#8, 0#8, 0#8, 0#8, 0#8, 0#8, 0#8, 6#8] := by
  decide

/-- R227: over 103 byte 66 decodes and byte 67 does not. -/
theorem test_fdec :
    (after (.fdec 5#6 9#6 0#2) (bare.putBytes 0 [0x66#8])).regAt 5 = { val := 102, tag := .fp 0#2 } ∧
    (after (.fdec 5#6 9#6 0#2) (bare.putBytes 0 [0x67#8])).err = 2#8 := by
  decide

/-- R228. -/
theorem test_fbinv :
    vals (after (.fbinv 20#6 10#6 2#6) (load bare [(10, 2, .fp 3#2), (11, 3, .fp 3#2), (12, 6, .fp 3#2)])) 20 3 =
      [0x7FFFFFFFFFFFFFE3, 0x5555555555555542, 0x2AAAAAAAAAAAAAA1] := by
  decide

/-! ### Extension-field commands -/

/-- R242: the two examples of a prime base and one of a tower base. -/
theorem test_twrdef :
    (after (.twrdef 1#3 2#6 3#6 .cubic ⟨false, 0#3⟩) (elems bare 2 [2, 46, 56])).twrAt 1#3 = towers.twrAt 1#3 ∧
    (after (.twrdef 3#3 2#6 4#6 .quadratic ⟨true, 0#3⟩) (elems towers 2 [2, 1, 12, 24])).twrAt 3#3 = towers.twrAt 2#3 := by
  decide

/-- R242: beta = 4 is a square. -/
theorem test_twrdef_residue : (after (.twrdef 3#3 2#6 3#6 .quadratic ⟨false, 0#3⟩) (elems bare 2 [4, 102])).err = 6#8 := by
  decide

/-- R243. -/
theorem test_ezero : vals (after (.ezero 20#6 0#3) (elems towers 20 [7, 7, 7])) 20 3 = [0, 0, 7] := by decide

/-- R244. -/
theorem test_eone : vals (after (.eone 20#6 2#3) (elems towers 20 [7, 7, 7, 7])) 20 4 = [1, 0, 0, 0] := by decide

/-- R245. -/
theorem test_eadd : vals (after (.eadd 20#6 10#6 12#6 0#3) (elems towers 10 [3, 4, 5, 6])) 20 2 = [8, 10] := by decide

/-- R246. -/
theorem test_esub : vals (after (.esub 20#6 10#6 12#6 0#3) (elems towers 10 [3, 4, 5, 6])) 20 2 = [101, 101] := by decide

/-- R247. -/
theorem test_eneg : vals (after (.eneg 20#6 10#6 0#3) (elems towers 10 [3, 4])) 20 2 = [100, 99] := by decide

/-- R248: Fp2 and Fp4. -/
theorem test_emul :
    vals (after (.emul 20#6 10#6 12#6 0#3) (elems towers 10 [3, 4, 5, 6])) 20 2 = [94, 38] ∧
    vals (after (.emul 20#6 10#6 14#6 2#3) (elems towers 10 [1, 2, 3, 4, 5, 6, 7, 8])) 20 4 = [22, 6, 85, 60] := by
  decide

/-- R248: Fp3. -/
theorem test_emul_cubic :
    vals (after (.emul 20#6 10#6 13#6 1#3) (elems towers 10 [1, 2, 3, 4, 5, 6])) 20 3 = [58, 49, 28] := by
  decide

/-- R249, in place. -/
theorem test_esqr : vals (after (.esqr 10#6 10#6 0#3) (elems towers 10 [3, 4])) 10 2 = [96, 24] := by decide

/-- R250: Fp3 and Fp4. -/
theorem test_einv :
    vals (after (.einv 20#6 10#6 1#3) (elems towers 10 [1, 2, 3])) 20 3 = [67, 43, 22] ∧
    vals (after (.einv 20#6 10#6 2#3) (elems towers 10 [1, 2, 3, 4])) 20 4 = [63, 49, 89, 41] := by
  decide

/-- R251. -/
theorem test_epow : vals (after (.epow 20#6 10#6 1#6 0#3) (load (elems towers 10 [3, 4]) [(1, 5, .raw)])) 20 2 = [72, 77] := by
  decide

/-- R252. -/
theorem test_eisz :
    (after (.eisz 10#6 2#3) (elems towers 10 [1, 0, 0, 0])).t = false ∧
    (after (.eisz 10#6 2#3) (elems towers 10 [0, 0, 0, 0])).t = true := by
  decide

/-- R253. -/
theorem test_eeq : (after (.eeq 10#6 14#6 2#3) (elems towers 10 [1, 0, 0, 0, 1, 2, 3, 4])).t = false := by decide

/-- R254: quadratic, and InvalidParameter on the cubic level. -/
theorem test_econj :
    vals (after (.econj 20#6 10#6 0#3) (elems towers 10 [3, 4])) 20 2 = [3, 99] ∧
    (after (.econj 20#6 10#6 1#3) (elems towers 10 [3, 4, 5])).err = 6#8 := by
  decide

/-- R255: Fp3 and Fp4. -/
theorem test_efrob :
    vals (after (.efrob 20#6 10#6 1#6 1#3) (elems towers 10 [1, 2, 3])) 20 3 = [1, 92, 65] ∧
    vals (after (.efrob 20#6 10#6 1#6 2#3) (elems towers 10 [1, 2, 3, 4])) 20 4 = [1, 101, 29, 24] := by
  decide

/-- R256, and its fault with nothing written. -/
theorem test_ebinv :
    vals (after (.ebinv 20#6 10#6 2#6 0#3) (elems towers 10 [3, 4, 1, 0, 5, 6])) 20 6 = [99, 74, 1, 0, 71, 59] ∧
    (after (.ebinv 20#6 10#6 2#6 0#3) (elems towers 10 [3, 4, 0, 0, 5, 6])).err = 1#8 := by
  decide

/-! ### Curve commands -/

/-- R270. -/
theorem test_crvdef :
    (after (.crvdef 0#2 6#6 3#6 0#2 ⟨false, 0#3⟩) (load (elems bare 6 [1, 0]) [(3, 13, .raw)])).crvAt 0#2 =
      curves.crvAt 0#2 := by
  decide

/-- R276. -/
theorem test_pinf : vals (after (.pinf 40#6 0#2) curves) 40 3 = [0, 1, 0] := by decide

/-- R277, and a pair off the curve. -/
theorem test_plift :
    vals (after (.plift 30#6 10#6 0#2) (points curves)) 30 3 = [49, 81, 1] ∧
    (after (.plift 30#6 40#6 0#2) (elems curves 40 [49, 82])).err = 3#8 := by
  decide +kernel

/-- R278. -/
theorem test_pdbl : vals (after (.pdbl 15#6 12#6 0#2) (points curves)) 15 3 = [34, 29, 59] := by decide +kernel

/-- R279. -/
theorem test_padd :
    vals (after (.padd 30#6 15#6 12#6 0#2) (points curves)) 30 3 = [25, 83, 10] ∧
    vals (after (.padd 30#6 12#6 12#6 0#2) (points curves)) 30 3 = [34, 29, 59] := by
  decide +kernel

/-- R280. -/
theorem test_pmadd : vals (after (.pmadd 30#6 15#6 10#6 0#2) (points curves)) 30 3 = [25, 83, 10] := by decide +kernel

/-- R281. -/
theorem test_pneg :
    vals (after (.pneg 30#6 12#6 0#2) (points curves)) 30 3 = [49, 22, 1] ∧
    vals (after (.pneg 30#6 40#6 0#2) (elems curves 40 [5, 7, 0])) 30 3 = [0, 1, 0] := by
  decide +kernel

/-- R282. -/
theorem test_pisinf : (after (.pisinf 23#6 0#2) (points curves)).t = true ∧ (after (.pisinf 12#6 0#2) (points curves)).t = false := by
  decide +kernel

/-- R283. -/
theorem test_paff :
    vals (after (.paff 30#6 15#6 0#2) (points curves)) 30 2 = [18, 59] ∧ (after (.paff 30#6 23#6 0#2) (points curves)).err = 1#8 := by
  decide +kernel

/-- R284. -/
theorem test_ponc :
    (after (.ponc 40#6 0#2) (elems curves 40 [25, 83, 10])).t = true ∧ (after (.ponc 40#6 0#2) (elems curves 40 [49, 82, 1])).t = false := by
  decide

/-- R285. -/
theorem test_peq :
    (after (.peq 15#6 40#6 0#2) (elems (points curves) 40 [18, 59, 1])).t = true ∧
    (after (.peq 12#6 40#6 0#2) (elems (points curves) 40 [49, 22, 1])).t = false := by
  decide +kernel

/-- R286: k = 5 with the reset window; k = 11 with w = 2. -/
theorem test_psmul :
    vals (after (.psmul 50#6 12#6 4#6 0#2) (points curves)) 50 3 = [68, 12, 102] ∧
    vals (after (.psmul 50#6 12#6 4#6 0#2) (load { (points curves) with wnafw := 2#4 } [(4, 11, .raw)])) 50 3 = [19, 74, 8] := by
  decide +kernel

/-- R287. -/
theorem test_psmul2 : vals (after (.psmul2 50#6 12#6 5#6 0#2) (points curves)) 50 3 = [19, 74, 8] := by decide +kernel

/-! ### wNAF commands -/

/-- R311. -/
theorem test_wnafenc :
    (after (.wnafenc 3#6 1#6 2#6 3#4) (load bare [(1, 11, .raw), (2, 0x200, .raw)])).bytesAt 0x200 10 =
      [0xFB#8, 0xFF#8, 0#8, 0#8, 0#8, 0#8, 0#8, 0#8, 1#8, 0#8] ∧
    (after (.wnafenc 3#6 1#6 2#6 3#4) (load bare [(1, 11, .raw), (2, 0x200, .raw)])).val 3#6 = 5 := by
  decide

/-- R312, and the sum -1. -/
theorem test_wnafdec :
    (after (.wnafdec 4#6 3#6 2#6) ((load bare [(3, 5, .raw)]).putBytes 0 [0xFB#8, 0xFF#8, 0#8, 0#8, 0#8, 0#8, 0#8, 0#8, 1#8, 0#8])).val 4#6
      = 11 ∧
    (after (.wnafdec 4#6 3#6 2#6) ((load bare [(3, 2, .raw)]).putBytes 0 [0xFF#8, 0xFF#8, 0#8, 0#8])).err = 2#8 := by
  decide

/-! ### Pairing commands -/

/-- R321. -/
theorem test_prgdef : (after (.prgdef 0#2 1#2 false 7#6 8#6 0#3) (points curves)).prg = toy.prg := by decide +kernel

/-- R327, and the point at infinity. -/
theorem test_precg1 :
    (after (.precg1 0#2 12#6) (points toy)).preAt 0#2 = some (.g1 [49] [81]) ∧ (after (.precg1 0#2 23#6) (points toy)).err = 4#8 := by
  decide +kernel

/-- R328: the ten tuples of section 5. -/
theorem test_precg2 :
    (after (.precg2 1#2 20#6) (points toy)).preAt 1#2 = some (.g2
      [⟨[79], [32], [8]⟩, ⟨[3], [94], [30]⟩, ⟨[17], [44], [59]⟩, ⟨[8], [38], [87]⟩, ⟨[3], [4], [1]⟩, ⟨[8], [58], [66]⟩,
       ⟨[10], [82], [72]⟩, ⟨[66], [15], [81]⟩, ⟨[27], [36], [9]⟩, ⟨[30], [63], [93]⟩]) := by
  decide +kernel

/-- R329, and the slots in the wrong order. -/
theorem test_mloop :
    vals (after (.mloop 30#6 0#2 1#2) ready) 30 2 = [85, 71] ∧ (after (.mloop 50#6 1#2 0#2) ready).err = 6#8 := by
  decide +kernel

/-- R330. -/
theorem test_dmloop : vals (after (.dmloop 36#6 0#2 1#2 0#2 1#2) ready) 36 2 = [21, 19] := by decide +kernel

/-- R332. -/
theorem test_fexp :
    vals (after (.fexp 32#6 30#6) (elems toy 30 [85, 71])) 32 2 = [22, 54] ∧
    vals (after (.fexp 32#6 30#6) (elems toy 30 [89, 0])) 32 2 = [1, 0] := by
  decide

/-- R333. -/
theorem test_rpair : vals (after (.rpair 34#6 12#6 20#6) (points toy)) 34 2 = [22, 54] := by decide +kernel

/-! ### The step, the host and the reset -/

/-- R145, R353, R106: a step in RUN, past the end of CM, on an unassigned opcode. -/
theorem test_step :
    stepped (bare.withFetchWord 32 0x05140064) = after (.li 5#6 100#18) (bare.withFetchWord 32 0x05140064) ∧
    stepped { bare with pc := 4096#19 } = ({ bare with pc := 4096#19 } : State).faulted .addressFault 4096#32 ∧
    stepped (bare.withFetchWord 32 0xFFFFFFFF) = (bare.withFetchWord 32 0xFFFFFFFF).faulted .illegalCommand 0xFFFFFFFF#32 := by
  decide

/-- R45: CLR and START in one write; R390: SRST in RUN. -/
theorem test_ctrl :
    (hostAct (bare.faulted .outOfRange 7#32) (.writeCsr 36 3#32)).run = .run ∧
    (hostAct (bare.faulted .outOfRange 7#32) (.writeCsr 36 3#32)).err = 0#8 ∧
    (hostAct bare (.writeCsr 36 8#32)).run = .idle ∧ (hostAct bare (.writeCsr 36 8#32)).ctxAt 0#2 = none := by
  decide

/-! ### Witnesses: for every obligation with hypotheses, states and operands that meet them, clause by clause

Each theorem bears the name of its obligation. Ranges are tried at their ends and just beyond them. -/

/-- The command answers a next state. -/
def completes (i : Instr) (s : State) : Bool :=
  match exec i s with
  | .next _ => true
  | .fault _ => false
  | .refused _ => false

theorem exec_after (i : Instr) (s : State) (h : completes i s = true) : exec i s = .next (after i s) := by
  unfold completes at h; unfold after; split at h <;> simp_all

/-- A valid field whose operands fit. -/
def fits (f : Option FieldView) (regs : List (RegIx × Nat)) : Bool :=
  match f with
  | none => false
  | some f => decide (OperandsFit f regs)

/-- A valid field whose operands do not fit. -/
def overruns (f : Option FieldView) (regs : List (RegIx × Nat)) : Bool :=
  match f with
  | none => false
  | some f => !decide (OperandsFit f regs)

/-- A valid field whose sources carry its tag. -/
def tagsOk (s : State) (f : Option FieldView) (regs : List (RegIx × Nat)) : Bool :=
  match f with
  | none => false
  | some f => decide (OperandsTagged s f regs)

/-- A valid field some of whose sources do not carry its tag. -/
def tagsBad (s : State) (f : Option FieldView) (regs : List (RegIx × Nat)) : Bool :=
  match f with
  | none => false
  | some f => !decide (OperandsTagged s f regs)

/-- Something about a valid entry. -/
def holds {α : Type} (o : Option α) (p : α → Bool) : Bool :=
  match o with
  | none => false
  | some a => p a

/-- W = 64 and N = 2, with context 0 = Barrett 103, so that 2^(2*k*W) is below the bound of ACC. -/
def wide : State :=
  let par : Params := { limbBits := 64, limbs := 2, cmWords := 1, dmBytes := 100, wMax := 1 }
  { State.resetWith par with
    run := .run
    ctx := (Vector.replicate 4 none).setIfInBounds 0 (some (makeCtx par .barr 103)) }

/-- `bare` with context 2 = Barrett 15, a composite modulus. -/
def composite : State := { bare with ctx := bare.ctx.setIfInBounds 2 (some (makeCtx Config.default .barr 15)) }

/-- The curve's coordinate field. -/
def curveField (s : State) (i : CrvIx) : Option FieldView := (s.curveOf i).map (fun v => v.fv)

theorem reset_inv : State.reset.Inv := by decide +kernel
theorem bare_inv : bare.Inv := by decide +kernel
theorem points_inv : (points curves).Inv := by decide +kernel
theorem towers_inv : (elems towers 10 [1, 2, 3, 4, 5, 6, 7, 8]).Inv := by decide +kernel
theorem toy_inv : (points toy).Inv := by decide +kernel
theorem ready_inv : (elems ready 30 [85, 71]).Inv := by decide +kernel
theorem mont_inv : mont.Inv := by decide +kernel
theorem wide_inv : ({ wide with acc := 2 ^ 256 - 1 } : State).Inv := by decide +kernel
theorem composite_inv : composite.Inv := by decide +kernel

theorem witness_DecodeAndEncodeAreInverse : decode 0x371020C0#32 = .ok (.fmul 4#6 2#6 3#6) := by decide

theorem witness_DecodeAcceptsExactlyTheOpcodeMap :
    decode 0x371020C0#32 = .ok (.fmul 4#6 2#6 3#6) ∧
    (∃ row ∈ opcodeMap, 0x371020C0#32 &&& row.mask = row.pattern) ∧
    ¬ ∃ row ∈ opcodeMap, 0x371020C1#32 &&& row.mask = row.pattern := by
  decide +kernel

theorem witness_StepRunsTheDecodedCommand :
    let s := ({ bare with pc := 4095#19 } : State).withFetchWord 32 0x05140064
    (s.run = .run ∧ s.pc.toNat < s.par.cmWords ∧ decode (s.wordAt s.pc.toNat) = .ok (.li 5#6 100#18)) ∧
    State.reset.run ≠ .run := by
  decide

theorem witness_FetchPastTheEndFaults :
    let s := ({ bare with pc := 4096#19 } : State)
    let t := ({ bare with pc := 4095#19 } : State).withFetchWord 32 0x22000002
    (s.run = .run ∧ s.par.cmWords ≤ s.pc.toNat) ∧
    (t.run = .run ∧ t.pc.toNat < t.par.cmWords ∧ (stepped t).run = .fault) := by
  decide

theorem witness_WordsOutsideTheMapAreIllegal :
    (let s := bare.withFetchWord 32 0x371020C1
     s.run = .run ∧ s.pc.toNat < s.par.cmWords ∧ s.wordAt s.pc.toNat = 0x371020C1#32) ∧
    (∀ row ∈ opcodeMap, 0x371020C1#32 &&& row.mask ≠ row.pattern) ∧
    ∀ op ∈ [0x0F, 0x1A, 0x1F, 0x29, 0x2F, 0x41, 0x4F, 0x5F, 0x6D, 0x6F, 0x72, 0x7F, 0x87, 0xFF],
      (BitVec.ofNat 32 (op * 2 ^ 24)).toNat / 2 ^ 24 = op ∧
      (op = 0x0F ∨ (0x1A ≤ op ∧ op ≤ 0x1F) ∨ (0x29 ≤ op ∧ op ≤ 0x2F) ∨ (0x41 ≤ op ∧ op ≤ 0x4F) ∨ op = 0x5F ∨
      (0x6D ≤ op ∧ op ≤ 0x6F) ∨ (0x72 ≤ op ∧ op ≤ 0x7F) ∨ 0x87 ≤ op) := by
  refine ⟨by decide, by decide +kernel, by decide⟩

theorem witness_ResetValuesAreSound : Config.default.valid = true ∧ wide.par.valid = true := by decide

theorem witness_StepKeepsSoundness :
    (elems ready 30 [85, 71]).Inv ∧ completes (.fexp 32#6 30#6) (elems ready 30 [85, 71]) = true :=
  ⟨ready_inv, by decide +kernel⟩

theorem witness_HostKeepsSoundness : (elems ready 30 [85, 71]).Inv ∧ wide.Inv := ⟨ready_inv, by decide +kernel⟩

/-- A run from reset: the host writes LI x1, 103; CTXDEF 0, x1, BARR; FONE x2, 0 and starts the engine. -/
theorem witness_TaggedRegistersStayReduced :
    Config.default.valid = true ∧
    ((State.resetWith Config.default).afterAll
      [.host (.writeCm 0 (encode (.li 1#6 103#18))), .host (.writeCm 1 (encode (.ctxdef 0#2 1#6 .barr))),
        .host (.writeCm 2 (encode (.fone 2#6 0#2))), .host (.writeCsr 36 1#32), .engine, .engine, .engine]).tag 2#6 =
      .fp 0#2 := by
  decide +kernel

theorem witness_TableEntriesAreWrittenOnce :
    ((Event.engine ≠ .host .resetLine) ∧ ∀ v : Word, Event.engine ≠ .host (.writeCsr 36 v)) ∧
    (ready.ctxAt 0#2 ≠ none ∧ ready.twrAt 0#3 ≠ none ∧ ready.crvAt 0#2 ≠ none ∧ ready.prg ≠ none) :=
  ⟨⟨by decide, fun _ h => by cases h⟩, by decide +kernel⟩

theorem witness_FlagWriters :
    (∀ i ∈ [Instr.add 1#6 2#6 3#6, .cmp 1#6 2#6, .btst 1#6 2#6, .csrw 1#6 6#18],
      completes i bare = true ∧ (after i bare).pc ≠ bare.pc ∧
      completes i { bare with c := true, z := true, l := true, t := true } = true) ∧
    writesC (.add 1#6 2#6 3#6) = true ∧ writesC (.cmp 1#6 2#6) = false ∧ writesZL (.cmp 1#6 2#6) = true ∧
    writesZL (.add 1#6 2#6 3#6) = false ∧ writesT (.btst 1#6 2#6) = true ∧ writesT (.cmp 1#6 2#6) = false := by
  decide

theorem witness_CommandFrame :
    ∀ i ∈ [Instr.st 1#6 2#6 0#12, .ebinv 20#6 10#6 3#6 0#3, .psmul2 50#6 12#6 5#6 0#2, .nop],
      completes i (elems (points curves) 10 [3, 4, 1, 1, 5, 6]) = true := by
  decide +kernel

theorem witness_ControlTransferResults :
    (Flag.l, ({ bare with l := true } : State).l) ∈ [(Flag.c, bare.c), (Flag.z, bare.z), (Flag.l, true), (Flag.t, bare.t)] ∧
    ({ bare with l := true } : State).l = true ∧ bare.l = false := by
  decide

theorem witness_MoveCommands :
    (points curves).Inv ∧ (62 + (1 + 1) ≤ 64 ∧ (10#6).toNat + ((1#6).toNat + 1) ≤ 64) ∧
    ¬((10#6).toNat + ((1#6).toNat + 1) ≤ 64 ∧ (63#6).toNat + ((1#6).toNat + 1) ≤ 64) :=
  ⟨points_inv, by decide, by decide⟩

theorem witness_LoadsAndStores :
    let s := load bare [(2, 65528, .raw)]
    s.Inv ∧ s.InsideDm (s.val 2#6 + (0#12).toNat) (s.par.bits / 8) := by
  decide +kernel

theorem witness_DataAccessBounds :
    let s := load mont [(9, 65528, .raw), (10, 65529, .raw), (11, 2 ^ 64 - 1, .raw)]
    s.run = .run ∧
    (s.dataAccess (.ld 1#6 9#6 0#12) = some (65528, 8) ∧ s.InsideDm 65528 8) ∧
    (s.dataAccess (.st 1#6 9#6 1#12) = some (65529, 8) ∧ ¬ s.InsideDm 65529 8) ∧
    (s.dataAccess (.ld 1#6 11#6 0#12) = some (2 ^ 64 - 1, 8) ∧ ¬ s.InsideDm (2 ^ 64 - 1) 8) ∧
    (s.dataAccess (.fenc 4#6 9#6) = some (65528, 8) ∧ s.InsideDm 65528 8) ∧
    (s.dataAccess (.fdec 4#6 10#6 0#2) = some (65529, 1) ∧ s.InsideDm 65529 1) ∧
    (s.dataAccess (.wnafenc 3#6 1#6 9#6 3#4) = some (65528, 2) ∧ s.InsideDm 65528 2) ∧
    (s.dataAccess (.wnafdec 3#6 1#6 9#6) = some (65528, 0) ∧ s.InsideDm 65528 0) ∧
    s.dataAccess .nop = none ∧ s.dataAccess (.wnafenc 3#6 1#6 9#6 0#4) = none := by
  decide +kernel

theorem witness_CsrReads :
    (points toy).Inv ∧ (points toy).run = .run ∧ (9#18).toNat = 9 ∧ 11 ≤ (11#18).toNat ∧
    (∀ n ∈ [0, 1, 2, 3, 4, 5, 6, 7, 8, 10], (BitVec.ofNat 18 n).toNat = n ∧ n ≠ 9 ∧ n < 11) :=
  ⟨toy_inv, by decide +kernel⟩

theorem witness_CsrWrites :
    let s := load wide [(1, 2 ^ 32, .raw), (2, 16, .raw), (3, 2 ^ 32 - 1, .raw), (4, 2, .raw), (5, 15, .raw), (6, 1, .raw)]
    s.Inv ∧ 2 ^ 32 ≤ s.val 1#6 ∧ (16 ≤ s.val 2#6 ∧ s.val 2#6 < 2 ^ 32) ∧ (s.par.wMax < s.val 3#6 ∧ s.val 3#6 < 2 ^ 32) ∧
    (s.par.wMax < s.val 4#6) ∧ s.val 0#6 = 0 ∧ s.val 5#6 < 16 ∧ (1 ≤ s.val 6#6 ∧ s.val 6#6 ≤ s.par.wMax) ∧
    ((5#18).toNat ≠ 6 ∧ (5#18).toNat ≠ 7) := by
  decide +kernel

theorem witness_IntegerArithmetic : (load wide [(1, 2 ^ 128 - 1, .raw), (2, 2 ^ 128 - 1, .raw)]).Inv := by decide +kernel

theorem witness_Shifts : (load wide [(1, 2 ^ 127 + 1, .raw), (2, 128, .raw)]).Inv := by decide +kernel

theorem witness_DefineContext :
    let s := load bare [(1, 1, .raw), (2, 2, .raw), (3, 3, .raw), (4, 2 ^ 64 - 1, .raw)]
    s.Inv ∧ s.ctxAt 0#2 ≠ none ∧ s.ctxAt 2#2 = none ∧
    (s.val 1#6 ≤ 1 ∧ s.val 2#6 % 2 = 0 ∧ s.val 0#6 = 0) ∧
    ¬(s.val 3#6 % 2 = 0 ∨ s.val 3#6 ≤ 1) ∧ ¬(s.val 4#6 % 2 = 0 ∨ s.val 4#6 ≤ 1) ∧ s.val 1#6 ≠ 0 := by
  decide +kernel

theorem witness_Reductions :
    let s := { bare with acc := (2 ^ 64 - 59) * 2 ^ 64 - 1 }
    let u := { bare with acc := (2 ^ 64 - 59) * 2 ^ 64 }
    let w := { wide with acc := 2 ^ 128 }
    (s.Inv ∧ s.ctxAt 2#2 = none ∧ holds (s.ctxAt 1#2) (fun e => e.strat == .mont && decide (s.acc < e.m * 2 ^ s.par.bits)) ∧
      holds (s.ctxAt 0#2) (fun e => e.strat == .barr && decide (s.acc < 2 ^ (2 * e.k * s.par.limbBits)))) ∧
    (u.Inv ∧ holds (u.ctxAt 1#2) (fun e => e.strat == .mont && decide (e.m * 2 ^ u.par.bits ≤ u.acc))) ∧
    (w.Inv ∧ holds (w.ctxAt 0#2) (fun e => e.strat == .barr && decide (2 ^ (2 * e.k * w.par.limbBits) ≤ w.acc))) := by
  decide +kernel

theorem witness_WordSerialReduction :
    (1 ≤ 4 ∧ 103 % 2 = 1 ∧ 1 < 103 ∧ 103 < 2 ^ (2 * 4) ∧ 9 < 2 ^ 4 ∧ 9 * 103 % 2 ^ 4 = 2 ^ 4 - 1 ∧
      103 * 2 ^ (2 * 4) - 1 < 103 * 2 ^ (2 * 4)) ∧ 0 < 103 * 2 ^ (2 * 4) := by
  decide

theorem witness_BarrettReduction :
    (1 ≤ 4 ∧ 1 ≤ 2 ∧ 2 ^ (4 * (2 - 1)) ≤ 16 ∧ 255 < 2 ^ (4 * 2) ∧ 2 ^ 16 - 1 < 2 ^ (2 * 2 * 4)) ∧
    (2 ^ (1 * (1 - 1)) ≤ 1 ∧ 1 < 2 ^ (1 * 1) ∧ 3 < 2 ^ (2 * 1 * 1)) := by
  decide

theorem witness_ModularArithmetic :
    let s := load composite [(1, 14, .raw), (2, 15, .raw), (3, 5, .raw)]
    s.Inv ∧ bare.ctxAt 2#2 = none ∧ holds (s.ctxAt 2#2) (fun e => e.m == 15) ∧
    15 ≤ s.val 2#6 ∧ s.val 1#6 < 15 ∧ (s.val 3#6 < 15 ∧ Nat.gcd (s.val 3#6) 15 ≠ 1) ∧ s.val 0#6 = 0 ∧
    (s.val 1#6 ≠ 0 ∧ Nat.gcd (s.val 1#6) 15 = 1) := by
  decide +kernel

theorem witness_JacobiCommand :
    let s := load bare [(1, 1, .raw), (2, 2, .raw), (3, 3, .raw), (4, 2 ^ 64 - 1, .raw)]
    s.Inv ∧ s.val 0#6 % 2 = 0 ∧ s.val 1#6 ≤ 1 ∧ s.val 2#6 % 2 = 0 ∧ (s.val 3#6 % 2 = 1 ∧ 1 < s.val 3#6) ∧
    (s.val 4#6 % 2 = 1 ∧ 1 < s.val 4#6) := by
  decide +kernel

theorem witness_RepresentationIsABijection :
    Config.default.valid = true ∧
    ((makeCtx Config.default .mont (2 ^ 64 - 59)).sound Config.default = true ∧
      2 ^ 64 - 60 < (makeCtx Config.default .mont (2 ^ 64 - 59)).m) ∧
    ((makeCtx Config.default .barr 1).sound Config.default = true ∧ 0 < (makeCtx Config.default .barr 1).m) := by
  decide +kernel

theorem witness_ElementsEnterAndLeave :
    let s := (load mont [(8, 103, .raw), (9, 65528, .raw), (10, 102, .raw)]).putBytes 0 [0x67#8, 0x66#8]
    s.Inv ∧ s.ctxAt 2#2 = none ∧ s.tag 1#6 = .raw ∧
    holds (s.ctxAt 0#2) (fun e => e.m == 103 && decide (s.InsideDm 0 ((e.mbits + 7) / 8))) ∧
    (103 ≤ s.val 8#6 ∧ s.val 10#6 < 103) ∧ s.tag 2#6 = .fp 1#2 ∧
    holds (s.ctxAt 1#2) (fun e => decide (s.InsideDm (s.val 9#6) ((e.mbits + 7) / 8))) ∧
    (s.byteAt 0 = 0x67#8 ∧ s.byteAt 1 = 0x66#8) := by
  decide +kernel

theorem witness_ElementArithmetic :
    mont.Inv ∧ mont.tag 1#6 = .raw ∧ mont.tag 2#6 = .fp 1#2 ∧ mont.tag 3#6 = .fp 1#2 ∧ mont.ctxAt 1#2 ≠ none :=
  ⟨mont_inv, by decide +kernel⟩

theorem witness_ElementInverses :
    let s := load composite [(10, 0, .fp 2#2), (11, 5, .fp 2#2), (62, 14, .fp 2#2), (63, 1, .fp 2#2)]
    s.Inv ∧ s.tag 1#6 = .raw ∧ ¬((62#6).toNat + ((2#6).toNat + 1) ≤ 64) ∧ holds (s.ctxAt 2#2) (fun e => e.m == 15 &&
      decide (e.logical s.par.bits (s.regAt 10).val = 0) && decide (Nat.gcd (e.logical s.par.bits (s.regAt 11).val) e.m ≠ 1) &&
      decide (∀ j, j < (1#6).toNat + 1 → (s.regAt (62 + j)).tag = .fp 2#2 ∧
        e.logical s.par.bits (s.regAt (62 + j)).val ≠ 0 ∧ Nat.gcd (e.logical s.par.bits (s.regAt (62 + j)).val) e.m = 1)) ∧
    (s.regAt 12).tag ≠ .fp 2#2 := by
  decide +kernel

theorem witness_BatchInversion : 0 < 103 ∧ [2, 102, 0] ≠ [] ∧ ∀ a ∈ [2, 102, 0], a < 103 := by decide

theorem witness_SquareRootCommand :
    (elems bare 10 [3, 13, 0]).Inv ∧ bare.tag 1#6 = .raw ∧ (elems bare 10 [3, 13, 0]).tag 11#6 = .fp 0#2 ∧
    holds (bare.ctxAt 0#2) (fun e =>
      decide (∀ r, r < e.m → r * r % e.m ≠ e.logical 64 3) &&
      decide (42 < e.m) && decide (42 * 42 % e.m = e.logical 64 13) &&
      decide (∀ u : Nat, u < 42 → u * u % e.m ≠ e.logical 64 13)) := by
  decide +kernel

theorem witness_TonelliShanks : Nat.Prime 3 ∧ 3 ≠ 2 ∧ 2 < 3 ∧ Nat.Prime 17 ∧ 16 < 17 ∧ 1 < 2 := by decide

theorem witness_FieldPredicates :
    let s := elems towers 10 [1, 2, 3, 4, 5, 6, 7, 8]
    s.Inv ∧ s.tag 1#6 = .raw ∧ s.tag 10#6 = .fp 0#2 ∧ s.ctxAt 0#2 ≠ none ∧ s.fieldOf (.tower 7#3) = none ∧
    overruns (s.fieldOf (.tower 2#3)) [(61#6, 1)] ∧ tagsBad s (s.fieldOf (.tower 2#3)) [(60#6, 1)] ∧
    fits (s.fieldOf (.tower 2#3)) [(10#6, 1), (14#6, 1)] ∧ tagsOk s (s.fieldOf (.tower 2#3)) [(10#6, 1), (14#6, 1)] :=
  ⟨towers_inv, by decide +kernel⟩

theorem witness_DefineTower :
    let s := load (elems towers 10 [0, 4, 102, 7]) [(20, 3, .fp 2#2), (21, 1, .fp 2#2), (22, 1, .fp 2#2)]
    let v := { s with ctx := composite.ctx }
    v.Inv ∧ ({ tower := false, num := 5#3 } : FieldSel).legal = false ∧ v.twrAt 0#3 ≠ none ∧ v.twrAt 7#3 = none ∧
    v.fieldOf (.tower 6#3) = none ∧ overruns (v.fieldOf (.prime 0#2)) [(10#6, 1), (63#6, 2)] ∧
    fits (v.fieldOf (.prime 0#2)) [(10#6, 1), (63#6, 1)] ∧ tagsBad v (v.fieldOf (.prime 0#2)) [(10#6, 1), (63#6, 1)] ∧
    tagsOk v (v.fieldOf (.prime 0#2)) [(10#6, 1), (11#6, 1)] ∧ tagsOk v (v.fieldOf (.prime 2#2)) [(20#6, 1), (21#6, 2)] ∧
    holds (v.fieldOf (.prime 0#2)) (fun f => v.elemAt f 10 == f.fld.zero && f.fld.pow (v.elemAt f 11) 51 == f.fld.one &&
      v.elemAt f 12 != f.fld.zero && decide (2 ∣ f.ctx.m ^ f.k - 1) &&
      f.fld.pow (v.elemAt f 12) ((f.ctx.m ^ f.k - 1) / 2) != f.fld.one) ∧
    holds (v.fieldOf (.prime 2#2)) (fun f => decide (¬ 3 ∣ f.ctx.m ^ f.k - 1)) := by
  decide +kernel

/-- Fp2 and Fp3 of R242, and Fp of a composite modulus and of the modulus 1. -/
theorem witness_TiersAreQuotientRings :
    let f := Fld.quad (.prime 103) [102] [102]
    let g := Fld.cubic (.prime 103) [2] [46] [56]
    (f.wf = true ∧ f.elemOk [102, 0] = true ∧ f.elemOk [1, 2] = true ∧ f.elemOk [3, 4] = true) ∧
    (g.wf = true ∧ g.elemOk [102, 0, 1] = true ∧ (Fld.prime 103).elemOk [102] = true) ∧
    ((Fld.prime 15).wf = true ∧ (Fld.prime 1).wf = true ∧ (Fld.prime 1).elemOk [0] = true) := by
  decide

theorem witness_TowerLinear :
    let s := elems towers 10 [1, 2, 3, 4, 5, 6, 7, 8]
    let f := s.fieldOf (.tower 2#3)
    s.Inv ∧ s.fieldOf (.tower 7#3) = none ∧ overruns f [(61#6, 1)] ∧ tagsBad s f [(60#6, 1)] ∧
    fits f [(60#6, 1), (10#6, 1), (14#6, 1)] ∧ tagsOk s f [(10#6, 1), (14#6, 1)] ∧
    holds (s.twrAt 2#3) (fun e => e.deg == .quadratic) ∧ holds (s.twrAt 1#3) (fun e => e.deg == .cubic) :=
  ⟨towers_inv, by decide +kernel⟩

theorem witness_TowerMultiplicative :
    let s := elems towers 10 [1, 2, 3, 4, 5, 6, 7, 8]
    let f := s.fieldOf (.tower 2#3)
    (s.Inv ∧ s.fieldOf (.tower 7#3) = none ∧ overruns f [(61#6, 1)] ∧ tagsBad s f [(60#6, 1)] ∧
      fits f [(60#6, 1), (10#6, 1), (14#6, 1)] ∧ tagsOk s f [(10#6, 1), (14#6, 1)] ∧ s.tag 1#6 = .raw ∧ s.tag 10#6 ≠ .raw ∧
      holds (s.twrAt 2#3) (fun e => e.deg == .quadratic) ∧ holds (s.twrAt 1#3) (fun e => e.deg == .cubic) ∧
      holds f (fun f => f.fld.elemOk [1, 2, 3, 4]) ∧ (s.fieldOf (.prime 0#2)).isSome) ∧
    ((Fld.quad (.prime 103) [102] [102]).wf = true ∧ (Fld.prime 103).elemOk [102] = true) :=
  ⟨⟨towers_inv, by decide +kernel⟩, by decide⟩

/-- Context 2 = Barrett 15 and over it a quadratic level as tower 3, which R242 admits; (1, 0) and (3, 0) from x10. -/
def overFifteen : State :=
  load ({ bare with ctx := bare.ctx.setIfInBounds 2 (some (makeCtx Config.default .barr 15)) }.setTwr 3#3
    { base := .prime 2#2, deg := .quadratic, beta := [2], gamma := [[1]], root := 2#2, k := 2 })
    [(10, 1, .fp 2#2), (11, 0, .fp 2#2), (12, 3, .fp 2#2), (13, 0, .fp 2#2)]

/-- Over F103, and over the composite modulus 15, where (1, 0) has an inverse and (3, 0) has none. -/
theorem witness_TowerInverse :
    let s := elems towers 10 [1, 2, 3, 4, 0, 0, 0, 0]
    let f := s.fieldOf (.tower 2#3)
    s.Inv ∧ s.fieldOf (.tower 7#3) = none ∧ overruns f [(57#6, 2)] ∧ tagsBad s f [(56#6, 2)] ∧
    fits f [(56#6, 2), (10#6, 2)] ∧ tagsOk s f [(10#6, 2)] ∧ holds f (fun f => s.elemAt f 10 != f.fld.zero &&
      s.elemAt f 14 == f.fld.zero && f.ctx.m == 103 && f.fld.elemOk [1, 2, 3, 4]) ∧ Nat.Prime 103 :=
  ⟨by decide +kernel, by decide +kernel, by decide +kernel, by decide +kernel, by decide +kernel, by decide +kernel,
    by decide +kernel, by norm_num⟩

theorem witness_TowerInverse_composite :
    let s := overFifteen
    let g := Fld.quad (.prime 15) [2] [1]
    s.Inv ∧ holds (s.fieldOf (.tower 3#3)) (fun f => f.fld == g && s.elemAt f 10 == [1, 0] && s.elemAt f 12 == [3, 0]) ∧
    fits (s.fieldOf (.tower 3#3)) [(10#6, 2)] ∧ tagsOk s (s.fieldOf (.tower 3#3)) [(10#6, 2)] ∧
    g.HasInverse [1, 0] ∧ ¬ g.HasInverse [3, 0] := by
  refine ⟨by decide +kernel, by decide +kernel, by decide +kernel, by decide +kernel, ⟨[1, 0], by decide, by decide⟩, ?_⟩
  rintro ⟨v, hv, h⟩
  have all : ∀ a, a < 15 → ∀ b, b < 15 → (Fld.quad (.prime 15) [2] [1]).mul [3, 0] [a, b] ≠ [1, 0] := by decide +kernel
  simp only [Fld.elemOk, Fld.degree, Fld.char, Bool.and_eq_true, List.all_eq_true] at hv
  match v, hv with
  | [a, b], ⟨_, hv⟩ => exact all a (of_decide_eq_true (hv a (by simp))) b (of_decide_eq_true (hv b (by simp))) h

theorem witness_FrobeniusIsThePthPower :
    let f := Fld.quad (.quad (.prime 103) [102] [102]) [2, 1] [12, 24]
    f.wf = true ∧ f.char.Prime ∧ f.frobeniusConstants ∧ f.elemOk [1, 2, 3, 102] = true := by
  refine ⟨by decide, by norm_num [Fld.char], ⟨⟨trivial, by decide, by decide +kernel⟩, by decide, by decide +kernel⟩, by decide⟩

theorem witness_DefineCurve :
    let s := load (elems towers 10 [1, 0, 0, 0]) [(3, 13, .raw)]
    s.Inv ∧ ({ tower := false, num := 4#3 } : FieldSel).legal = false ∧ (points curves).crvAt 0#2 ≠ none ∧
    s.crvAt 0#2 = none ∧ s.fieldOf (.tower 7#3) = none ∧ overruns (s.fieldOf (.tower 0#3)) [(61#6, 2)] ∧
    tagsBad s (s.fieldOf (.tower 0#3)) [(60#6, 2)] ∧ fits (s.fieldOf (.tower 0#3)) [(10#6, 2)] ∧
    tagsOk s (s.fieldOf (.tower 0#3)) [(10#6, 2)] ∧ s.tag 10#6 ≠ .raw ∧ s.tag 3#6 = .raw ∧ s.val 3#6 ≠ 0 ∧ s.val 4#6 = 0 := by
  decide +kernel

/-- A point, a pair on the curve, one off it, and Z = 0 with X and Y not those of the canonical infinity. -/
theorem witness_CurvePoints :
    let s := elems (points curves) 40 [49, 82, 5, 7, 0]
    let f := curveField s 0#2
    s.Inv ∧ s.curveOf 3#2 = none ∧ overruns f [(62#6, 3)] ∧ overruns f [(63#6, 2)] ∧ tagsBad s f [(61#6, 3)] ∧
    fits f [(61#6, 3), (12#6, 3)] ∧ tagsOk s f [(12#6, 3)] ∧ tagsOk s f [(42#6, 3)] ∧
    holds (s.curveOf 0#2) (fun v => onCurveAffine v.fv.fld v.crv.a v.crv.b (s.elemAt v.fv 10) (s.elemAt v.fv 11) &&
      !onCurveAffine v.fv.fld v.crv.a v.crv.b (s.elemAt v.fv 40) (s.elemAt v.fv 41) &&
      (s.pointAt v.fv 42).z == v.fv.fld.zero && (s.pointAt v.fv 12).z != v.fv.fld.zero && v.fv.ctx.m == 103) ∧
    Nat.Prime 103 :=
  ⟨by decide +kernel, by decide +kernel, by decide +kernel, by decide +kernel, by decide +kernel, by decide +kernel,
    by decide +kernel, by decide +kernel, by decide +kernel, by norm_num⟩

theorem witness_GroupLaw :
    let s := points curves
    let f := curveField s 0#2
    s.Inv ∧ s.curveOf 3#2 = none ∧ overruns f [(62#6, 3)] ∧ tagsBad s f [(61#6, 3)] ∧
    fits f [(61#6, 3), (12#6, 3), (15#6, 3)] ∧ tagsOk s f [(12#6, 3), (15#6, 3), (10#6, 2)] :=
  ⟨points_inv, by decide +kernel⟩

theorem witness_CurvePredicates :
    let s := points curves
    let f := curveField s 0#2
    s.Inv ∧ s.curveOf 3#2 = none ∧ overruns f [(62#6, 3)] ∧ tagsBad s f [(61#6, 3)] ∧
    fits f [(12#6, 3), (61#6, 3)] ∧ tagsOk s f [(12#6, 3), (15#6, 3), (23#6, 3)] :=
  ⟨points_inv, by decide +kernel⟩

theorem witness_ScalarMulCommands :
    let s := load (points curves) [(26, 15, .raw), (27, 16, .raw), (62, 15, .raw), (63, 0, .raw)]
    let f := curveField s 0#2
    s.Inv ∧ s.curveOf 3#2 = none ∧ overruns f [(62#6, 3)] ∧ overruns f [(59#6, 6)] ∧ (63#6).toNat + 2 > 64 ∧
    fits f [(61#6, 3), (12#6, 6)] ∧ tagsBad s f [(58#6, 6)] ∧ tagsOk s f [(12#6, 6)] ∧ s.tag 10#6 ≠ .raw ∧
    (s.tag 26#6 = .raw ∧ holds (s.curveOf 0#2) (fun v => decide (s.val 26#6 < 2 ^ v.crv.sbits))) ∧
    (s.tag 27#6 = .raw ∧ holds (s.curveOf 0#2) (fun v => decide (2 ^ v.crv.sbits ≤ s.val 27#6))) ∧
    ((62#6).toNat + 2 ≤ 64 ∧ (s.regAt 63).tag = .raw ∧ (s.regAt 63).val = 0) := by
  decide +kernel

theorem witness_GroupLawKeepsTheCurve :
    let f := Fld.prime 103
    f.wf = true ∧ f.elemOk [1] = true ∧ f.elemOk [0] = true ∧ f.pointOk ⟨[49], [81], [1]⟩ ∧ f.pointOk ⟨[34], [29], [59]⟩ ∧
    onCurve f [1] [0] ⟨[49], [81], [1]⟩ = true ∧ onCurve f [1] [0] ⟨[34], [29], [59]⟩ = true := by
  decide

/-- The points (49, 81, 1) and (0, 1, 0) of y^2 = x^3 + x over F103. -/
theorem witness_ScalarMultiplesOverPrimeFields :
    let g := Fld.prime 103
    let curve : WeierstrassCurve.Affine (ZMod 103) := { a₁ := 0, a₂ := 0, a₃ := 0, a₄ := ((1 : ℕ) : ZMod 103), a₆ := ((0 : ℕ) : ZMod 103) }
    Nat.Prime 103 ∧ 1 < 103 ∧ curve.Nonsingular 49 81 ∧ g.pointOk ⟨[49], [81], [1]⟩ ∧
    ((49 : ℕ) : ZMod 103) = 49 * ((1 : ℕ) : ZMod 103) ^ 2 ∧ ((81 : ℕ) : ZMod 103) = 81 * ((1 : ℕ) : ZMod 103) ^ 3 ∧
    g.pointOk ⟨[0], [1], [0]⟩ ∧ 1 ≤ 1 := by
  refine ⟨by norm_num, by decide, ?_, by decide, by decide, by decide, by decide, by decide⟩
  rw [WeierstrassCurve.Affine.nonsingular_iff, WeierstrassCurve.Affine.equation_iff]
  decide

theorem witness_WnafProperties : 1 ≤ 1 ∧ (wnaf 7 2).getD 0 0 ≠ 0 ∧ 0 < 7 := by decide

theorem witness_WnafCommands :
    let s := load bare [(1, 11, .raw), (2, 65526, .raw), (3, 66, .raw), (4, 65, .raw), (6, 1, .fp 0#2), (7, 1, .raw)]
    let u := (load bare [(1, 1, .raw), (2, 65534, .raw)]).putBytes 65534 [0xFF#8, 0xFF#8]
    let w := (load bare [(1, 1, .raw), (2, 65534, .raw)]).putBytes 65534 [0xFF#8, 0x7F#8]
    (s.Inv ∧ 3#4 ≠ 0#4 ∧ s.tag 6#6 ≠ .raw ∧ s.tag 1#6 = .raw ∧
      s.InsideDm (s.val 2#6) (2 * (wnaf (s.val 1#6) (3#4).toNat).length) ∧ s.par.bits + 1 < s.val 3#6 ∧
      (s.val 4#6 ≤ s.par.bits + 1 ∧ s.InsideDm (s.val 5#6) (2 * s.val 4#6))) ∧
    (u.Inv ∧ u.InsideDm (u.val 2#6) (2 * u.val 1#6) ∧
      digitSum ((List.range (u.val 1#6)).map (fun j => digitOf (u.byteAt (65534 + 2 * j)) (u.byteAt (65534 + 2 * j + 1)))) = -1) ∧
    (w.Inv ∧
      digitSum ((List.range (w.val 1#6)).map (fun j => digitOf (w.byteAt (65534 + 2 * j)) (w.byteAt (65534 + 2 * j + 1)))) = 32767) := by
  decide +kernel

/-- For each check of R321 a state that fails it, and one that passes all; omega = (1, 0) fails the twist alone. -/
theorem witness_DefinePairing :
    let s := elems (points curves) 26 [1, 1]
    s.Inv ∧ ready.prg ≠ none ∧ s.prg = none ∧ s.curveOf 3#2 = none ∧ s.fieldOf (.tower 7#3) = none ∧
    holds (s.curveOf 0#2) (fun c1 => holds (s.curveOf 1#2) (fun c2 => holds (s.fieldOf (.tower 0#3)) (fun gt =>
      pairingStructure s c1 c2 gt 0#3 && !pairingStructure s c2 c1 gt 0#3 &&
      decide (OperandsFit gt [(62#6, 1)]) && !decide (OperandsFit gt [(63#6, 1)]) &&
      decide (OperandsTagged s gt [(8#6, 1)]) && !decide (OperandsTagged s gt [(7#6, 1)]) &&
      decide (s.tag 7#6 = .raw) && decide (s.val 7#6 ≠ 0) && decide (s.val 1#6 = 0) &&
      decide (c1.crv.r ∣ gt.ctx.m ^ gt.k - 1) &&
      twistEqualities gt.fld .typeD c1.crv.a c1.crv.b c2.crv.a c2.crv.b (s.elemAt gt 8) &&
      !twistEqualities gt.fld .typeD c1.crv.a c1.crv.b c2.crv.a c2.crv.b (s.elemAt gt 26)))) := by
  decide +kernel

theorem witness_Precomputation :
    let s := elems (points toy) 40 [49, 82, 1]
    s.Inv ∧ bare.pairingOf = none ∧ holds s.pairingOf (fun v =>
      !decide (OperandsFit v.g1.fv [(62#6, 3)]) && decide (OperandsFit v.g1.fv [(61#6, 3)]) &&
      !decide (OperandsTagged s v.g1.fv [(61#6, 3)]) && decide (OperandsTagged s v.g1.fv [(12#6, 3), (23#6, 3), (40#6, 3)]) &&
      decide ((s.pointAt v.g1.fv 23).z = v.g1.fv.fld.zero) && !onCurve v.g1.fv.fld v.g1.crv.a v.g1.crv.b (s.pointAt v.g1.fv 40) &&
      decide ((s.pointAt v.g1.fv 12).z ≠ v.g1.fv.fld.zero) && onCurve v.g1.fv.fld v.g1.crv.a v.g1.crv.b (s.pointAt v.g1.fv 12) &&
      decide (v.g1.fv.ctx.m = 103) && decide (OperandsTagged s v.g2.fv [(20#6, 3)]) && decide (v.g2.fv.ctx.m = 103) &&
      decide ((s.pointAt v.g2.fv 20).z ≠ v.g2.fv.fld.zero) && onCurve v.g2.fv.fld v.g2.crv.a v.g2.crv.b (s.pointAt v.g2.fv 20) &&
      (precomputeG2 v.g2.fv.fld v.g2.crv.a v.g2.crv.b v.prg.loop (s.pointAt v.g2.fv 20)).isSome &&
      (precomputeG2 v.g2.fv.fld v.g2.crv.a v.g2.crv.b v.prg.loop (s.pointAt v.g2.fv 23)).isNone) := by
  decide +kernel

theorem witness_LinesPassThroughTheirPoints :
    let f := Fld.prime 103
    f.wf = true ∧ f.elemOk [1] = true ∧ f.elemOk [68] = true ∧ f.elemOk [91] = true ∧ f.pointOk ⟨[68], [91], [1]⟩ ∧
    doublingStep f [1] ⟨[68], [91], [1]⟩ ≠ none ∧
    additionStep f [1] [68] [91] (double f [1] ⟨[68], [91], [1]⟩) ≠ none := by
  decide

theorem witness_PairingCommands :
    let s := elems ready 30 [85, 71]
    s.Inv ∧ bare.pairingOf = none ∧ s.pairOf 1#2 0#2 = none ∧ holds s.pairingOf (fun v =>
      holds (s.pairOf 0#2 1#2) (fun p => (v.miller [p]).isSome && (v.miller [p, p]).isSome) &&
      !decide (OperandsFit v.gt [(63#6, 1)]) && decide (OperandsFit v.gt [(62#6, 1), (30#6, 1)]) &&
      decide (OperandsTagged s v.gt [(30#6, 1)]) && !decide (OperandsTagged s v.gt [(50#6, 1)]) &&
      decide (OperandsFit v.g1.fv [(12#6, 3)]) && decide (OperandsFit v.g2.fv [(20#6, 3)]) &&
      decide (OperandsTagged s v.g1.fv [(12#6, 3), (23#6, 3)]) && decide (OperandsTagged s v.g2.fv [(20#6, 3), (23#6, 3)]) &&
      !decide (OperandsTagged s v.g2.fv [(50#6, 3)]) &&
      (precomputeG1 v.g1.fv.fld v.g1.crv.a v.g1.crv.b (s.pointAt v.g1.fv 23)).isNone &&
      (precomputeG1 v.g1.fv.fld v.g1.crv.a v.g1.crv.b (s.pointAt v.g1.fv 12)).isSome &&
      (precomputeG2 v.g2.fv.fld v.g2.crv.a v.g2.crv.b v.prg.loop (s.pointAt v.g2.fv 20)).isSome && !v.prg.neg) :=
  ⟨ready_inv, by decide +kernel⟩

/-- `ready` with a negative loop count. -/
def negative : State := { ready with prg := ready.prg.map (fun e => { e with neg := true }) }

/-- A sound state with a negative loop count over the prime 103, a pair whose accumulator is zero, so that there is nothing to
invert, and a pair of slots whose accumulator is not. -/
theorem witness_PairingCommands_negative :
    negative.Inv ∧ Nat.Prime 103 ∧ holds negative.pairingOf (fun v => v.prg.neg && v.gt.ctx.m == 103 &&
      (v.miller [{ xP := [0], yP := [0], lines := [⟨[0], [0], [0]⟩] }]).isNone &&
      holds (negative.pairOf 0#2 1#2) (fun p => (v.miller [p]).isSome)) :=
  ⟨by decide +kernel, by norm_num, by decide +kernel⟩

theorem witness_ReducedPairingIsTheSequence :
    let s := points toy
    let t1 := after (.precg1 0#2 12#6) s
    let t2 := after (.precg2 1#2 20#6) t1
    let t3 := after (.mloop 34#6 0#2 1#2) t2
    let t4 := after (.fexp 34#6 34#6) t3
    s.Inv ∧ s.run = .run ∧ (0#2 ≠ 1#2) ∧ completes (.precg1 0#2 12#6) s ∧ completes (.precg2 1#2 20#6) t1 ∧
    completes (.mloop 34#6 0#2 1#2) t2 ∧ completes (.fexp 34#6 34#6) t3 ∧ t4.run = .run :=
  ⟨toy_inv, by decide +kernel⟩

theorem witness_DoubleLoopIsTheProduct :
    let s := elems ready 30 [85, 71]
    s.Inv ∧ holds s.pairingOf (fun v => !v.prg.neg && holds (s.pairOf 0#2 1#2) (fun p => (v.miller [p]).isSome)) :=
  ⟨ready_inv, by decide +kernel⟩

theorem witness_RunStateTransitions :
    let f := bare.faulted .outOfRange 7#32
    bare.run = .run ∧ f.run = .fault ∧ State.reset.run = .idle ∧ (8#32).getLsbD 3 = true ∧
    ((2#32).getLsbD 1 = true ∧ (2#32).getLsbD 3 = false) ∧ (1#32).getLsbD 1 = false ∧
    ∀ v : Word, HostAct.writeDm 0 0#8 ≠ .resetLine ∧ HostAct.writeDm 0 0#8 ≠ .writeCsr 36 v :=
  ⟨by decide, by decide, by decide, by decide, by decide, by decide, fun _ => ⟨by decide, fun h => by cases h⟩⟩

/-- ST in flight: its eight bytes are abandoned. -/
theorem witness_ResetKeepsMemories :
    (bare.withFetchWord 32 (encode (.st 1#6 2#6 8#12)).toNat).abandoned = [8, 9, 10, 11, 12, 13, 14, 15] := by
  decide +kernel

theorem witness_HostWindow :
    bare.run = .run ∧ (∀ v : Word, HostAct.writeDm 0 0#8 ≠ .writeCsr 36 v) ∧ State.reset.run ≠ .run ∧
    4095 < State.reset.par.cmWords ∧ 65535 < State.reset.par.dmBytes ∧ (3 < 4) ∧
    (State.reset.par.cmWords ≤ 4096 ∧ 4 * State.reset.par.cmWords ≤ 16384 ∧ State.reset.par.dmBytes ≤ 65536) ∧
    State.reset.par.valid = true ∧ (1 ≤ (8#32).toNat % 16 ∧ (8#32).toNat % 16 ≤ State.reset.par.wMax) :=
  ⟨by decide, (fun _ h => by cases h), by decide, by decide, by decide, by decide, by decide, by decide, by decide⟩

end Sys2Proof.Tests
end

section
/-! What the state rules R24 and R29 of 10_state.md say: the two representations, and which command writes which flag. -/

namespace Sys2Proof.Machine

/-! ### The two representations (R24) -/

theorem Ctx.rep_of_mont {e : Ctx} (h : e.strat = .mont) (bits a : Nat) : e.rep bits a = a * 2 ^ bits % e.m := by
  cases hr : e.red with
  | montgomery n r => simp [Ctx.rep, hr]
  | barrett mu => simp [Ctx.strat, Ctx.isMont, hr] at h

theorem Ctx.rep_of_barr {e : Ctx} (h : e.strat = .barr) {a : Nat} (ha : a < e.m) (bits : Nat) : e.rep bits a = a := by
  cases hr : e.red with
  | montgomery n r => simp [Ctx.strat, Ctx.isMont, hr] at h
  | barrett mu => simpa [Ctx.rep, hr] using Nat.mod_eq_of_lt ha

theorem Ctx.logical_of_barr {e : Ctx} (h : e.strat = .barr) (bits v : Nat) : e.logical bits v = v := by
  cases hr : e.red with
  | montgomery n r => simp [Ctx.strat, Ctx.isMont, hr] at h
  | barrett mu => simp [Ctx.logical, hr]

/-- Settles O29: a sound context is admitted, so the maps are inverse; the formula of `val` over a Montgomery context is
the one of `rep`, read backwards. -/
theorem representationIsABijection : Obligations.RepresentationIsABijection := by
  intro par e _ hsound
  have hadm := Ctx.sound_admitted hsound
  have hpos := Ctx.admitted_pos hadm
  refine ⟨fun a ha => ?_, fun v hv => ?_⟩
  · exact ⟨Ctx.rep_lt hpos _ _, Ctx.logical_rep hadm ha, fun h => Ctx.rep_of_mont h _ _, fun h => Ctx.rep_of_barr h ha _⟩
  · have hinv : e.rep par.bits (e.logical par.bits v) = v := Ctx.rep_logical hadm hv
    exact ⟨Ctx.logical_lt hpos hv, hinv, fun h => by rw [← Ctx.rep_of_mont h, hinv], fun h => Ctx.logical_of_barr h _ _⟩

/-! ### The flags a command leaves (R29) -/

/-- The flags that the lists of R29 do not give to command `i` are in `t` what they were in `s`. -/
def FlagsKept (i : Instr) (s t : State) : Prop :=
  (writesC i = false → t.c = s.c) ∧ (writesZL i = false → t.z = s.z ∧ t.l = s.l) ∧ (writesT i = false → t.t = s.t)

/-- Where the body `a` of command `i` completes from `s`, it keeps the flags that are not the command's. -/
def KeepsFlags (i : Instr) (s : State) (a : Attempt State) : Prop := ∀ s', a = .ok s' → FlagsKept i s s'

section
variable {i : Instr} {s t : State} {α : Type}

/-- An update of registers, tables, ACC or memory keeps every flag, by the field lemmas of State. -/
theorem FlagsKept.unchanged (hc : t.c = s.c := by simp [State.setFp]) (hz : t.z = s.z := by simp [State.setFp])
    (hl : t.l = s.l := by simp [State.setFp]) (ht : t.t = s.t := by simp [State.setFp]) : FlagsKept i s t :=
  ⟨fun _ => hc, fun _ => ⟨hz, hl⟩, fun _ => ht⟩

theorem FlagsKept.setC {b : Bool} (hw : writesC i = true) (h : FlagsKept i s t) : FlagsKept i s (t.setC b) :=
  ⟨by simp [hw], h.2⟩

theorem FlagsKept.setZL {z l : Bool} (hw : writesZL i = true) (h : FlagsKept i s t) : FlagsKept i s (t.setZL z l) :=
  ⟨h.1, by simp [hw], h.2.2⟩

theorem FlagsKept.setT {b : Bool} (hw : writesT i = true) (h : FlagsKept i s t) : FlagsKept i s (t.setT b) :=
  ⟨h.1, h.2.1, by simp [hw]⟩

/-- CSRW to FLAGS is in all three lists. -/
theorem FlagsKept.setFlags {rd : RegIx} {csr : Imm18} {v : Nat} (h6 : csr.toNat = 6) :
    FlagsKept (.csrw rd csr) s (t.setFlags v) := by
  obtain rfl : csr = 6#18 := BitVec.eq_of_toNat_eq h6
  simp [FlagsKept, writesC, writesZL, writesT]

theorem KeepsFlags.ok (h : FlagsKept i s t) : KeepsFlags i s (.ok t) := by
  rintro _ ⟨⟩
  exact h

theorem KeepsFlags.bind {x : Attempt α} {f : α → Attempt State} (h : ∀ a, x = .ok a → KeepsFlags i s (f a)) :
    KeepsFlags i s (x >>= f) := by
  intro s' hs'
  obtain ⟨a, hx, hf⟩ := Attempt.bind_eq_ok.mp hs'
  exact h a hx s' hf

/-- The checks and the reads of a command come before its update of the state, and what they find does not matter. -/
theorem KeepsFlags.after {x : Attempt α} {f : α → Attempt State} (h : ∀ a, KeepsFlags i s (f a)) :
    KeepsFlags i s (x >>= f) := .bind fun a _ => h a

theorem KeepsFlags.writeMem {addr : Nat} {bytes : List Byte} : KeepsFlags i s (s.writeMem addr bytes) := by
  intro s' hs'
  obtain ⟨_, rfl⟩ := State.writeMem_eq_ok.mp hs'
  exact .unchanged

/-- PC and fault entry touch no flag, so a command keeps what its body keeps (R357). -/
theorem flagsKept_of_conclude {a : Attempt State} (ha : KeepsFlags i s a) (h : conclude i s a = .next t) :
    FlagsKept i s t := by
  rcases conclude_next h with ⟨s', hs', rfl⟩ | ⟨tr, _, rfl⟩
  · exact ha s' hs'
  · obtain ⟨k, info, heq⟩ := s.takeTrap_eq (encode i) tr
    rw [heq]
    exact .unchanged

end

/-- No command changes a flag that the lists of R29 do not give to it. The cases are the shapes of a command: how many
checks and reads stand before its update of the state, and which flags that update writes. -/
theorem exec_flagsKept {i : Instr} {s t : State} (h : exec i s = .next t) : FlagsKept i s t := by
  cases i with
  | halt | jmp | bs | bc => cases h; exact .unchanged
  | nop | li | moval | movah | setal | setah | mul | bitlen => exact flagsKept_of_conclude (.ok .unchanged) h
  | add | sub | shl1 | shr1 | shl | shr => exact flagsKept_of_conclude (.ok (.setC rfl .unchanged)) h
  | cmp => exact flagsKept_of_conclude (.ok (.setZL rfl .unchanged)) h
  | btst => exact flagsKept_of_conclude (.ok (.setT rfl .unchanged)) h
  | st => exact flagsKept_of_conclude .writeMem h
  | mov | ld | csrr | fzero | fone | ftoi | fneg | fsqr => exact flagsKept_of_conclude (.after fun _ => .ok .unchanged) h
  | jacobi => exact flagsKept_of_conclude (.after fun _ => .ok (.setZL rfl .unchanged)) h
  | fisz => exact flagsKept_of_conclude (.after fun _ => .ok (.setT rfl .unchanged)) h
  | fenc => exact flagsKept_of_conclude (.after fun _ => .writeMem) h
  | modadd | modsub | modmul | modpow | ffromi | fadd | fsub | fmul | finv | fpow | ezero | eone | pinf =>
    exact flagsKept_of_conclude (.after fun _ => .after fun _ => .ok .unchanged) h
  | feq => exact flagsKept_of_conclude (.after fun _ => .after fun _ => .ok (.setT rfl .unchanged)) h
  | ctxdef | redc | bred | modinv | fdec | eneg | esqr | efrob | pdbl | pneg | fexp =>
    exact flagsKept_of_conclude (.after fun _ => .after fun _ => .after fun _ => .ok .unchanged) h
  | eisz | pisinf | ponc =>
    exact flagsKept_of_conclude (.after fun _ => .after fun _ => .after fun _ => .ok (.setT rfl .unchanged)) h
  | eadd | esub | emul | epow | econj | ebinv | plift | padd | pmadd | paff | precg1 | precg2 | mloop | fbinv |
    wnafdec =>
    exact flagsKept_of_conclude (.after fun _ => .after fun _ => .after fun _ => .after fun _ => .ok .unchanged) h
  | eeq | peq =>
    exact flagsKept_of_conclude
      (.after fun _ => .after fun _ => .after fun _ => .after fun _ => .ok (.setT rfl .unchanged)) h
  | einv | psmul | dmloop =>
    exact flagsKept_of_conclude
      (.after fun _ => .after fun _ => .after fun _ => .after fun _ => .after fun _ => .ok .unchanged) h
  | twrdef =>
    exact flagsKept_of_conclude (.after fun _ => .after fun _ => .after fun _ => .after fun _ => .after fun _ =>
      .after fun _ => .ok .unchanged) h
  | crvdef | psmul2 | rpair =>
    exact flagsKept_of_conclude (.after fun _ => .after fun _ => .after fun _ => .after fun _ => .after fun _ =>
      .after fun _ => .after fun _ => .ok .unchanged) h
  | prgdef =>
    exact flagsKept_of_conclude (.after fun _ => .after fun _ => .after fun _ => .after fun _ => .after fun _ =>
      .after fun _ => .after fun _ => .after fun _ => .after fun _ => .after fun _ => .after fun _ => .ok .unchanged) h
  | fsqrt =>
    refine flagsKept_of_conclude (.after fun f => ?_) h
    split
    · exact .ok (.setT rfl .unchanged)
    · exact .ok (.setT rfl .unchanged)
  | wnafenc =>
    refine flagsKept_of_conclude (.after fun _ => .after fun _ => .bind fun s' hs' => .ok ?_) h
    obtain ⟨_, rfl⟩ := State.writeMem_eq_ok.mp hs'
    exact .unchanged
  | csrw rd csr =>
    refine flagsKept_of_conclude (.after fun _ => .after fun _ => ?_) h
    split
    · next h6 => exact .after fun _ => .ok (.setFlags h6)
    · exact .after fun _ => .ok .unchanged

/-! ### The flags a command writes (R29) -/

/-- `s` with other flags. -/
def State.withFlags (s : State) (c z l b : Bool) : State := { s with c := c, z := z, l := l, t := b }

/-- The flags that the lists of R29 give to command `i` are the same in `t` and in `u`. -/
def FlagsAgree (i : Instr) (t u : State) : Prop :=
  (writesC i = true → u.c = t.c) ∧ (writesZL i = true → u.z = t.z ∧ u.l = t.l) ∧ (writesT i = true → u.t = t.t)

/-- Where the body `a` of command `i` completes, so does `b`, with the same values in the command's flags. -/
def AgreeOnFlags (i : Instr) (a b : Attempt State) : Prop := ∀ t, a = .ok t → ∃ u, b = .ok u ∧ FlagsAgree i t u

section
variable {i : Instr} {s t u : State} {α : Type}

theorem FlagsAgree.setC {b : Bool} (hz : writesZL i = false) (ht : writesT i = false) :
    FlagsAgree i (t.setC b) (u.setC b) := by
  simp [FlagsAgree, hz, ht]

theorem FlagsAgree.setZL {z l : Bool} (hc : writesC i = false) (ht : writesT i = false) :
    FlagsAgree i (t.setZL z l) (u.setZL z l) := by
  simp [FlagsAgree, hc, ht]

theorem FlagsAgree.setT {b : Bool} (hc : writesC i = false) (hz : writesZL i = false) :
    FlagsAgree i (t.setT b) (u.setT b) := by
  simp [FlagsAgree, hc, hz]

theorem FlagsAgree.setFlags {v : Nat} : FlagsAgree i (t.setFlags v) (u.setFlags v) := by
  simp [FlagsAgree]

theorem FlagsAgree.of_writes_none (hc : writesC i = false) (hz : writesZL i = false) (ht : writesT i = false) :
    FlagsAgree i t u := by
  simp [FlagsAgree, hc, hz, ht]

theorem AgreeOnFlags.ok (h : FlagsAgree i t u) : AgreeOnFlags i (.ok t) (.ok u) := by
  rintro _ ⟨⟩
  exact ⟨u, rfl, h⟩

/-- Both bodies go through one check or read, with the same answer. -/
theorem AgreeOnFlags.afterEq {x y : Attempt α} {f g : α → Attempt State} (hyx : y = x)
    (h : ∀ a, AgreeOnFlags i (f a) (g a)) : AgreeOnFlags i (x >>= f) (y >>= g) := by
  intro t ht
  obtain ⟨a, rfl, hf⟩ := Attempt.bind_eq_ok.mp ht
  exact hyx ▸ h a t hf

theorem AgreeOnFlags.after {x : Attempt α} {f g : α → Attempt State} (h : ∀ a, AgreeOnFlags i (f a) (g a)) :
    AgreeOnFlags i (x >>= f) (x >>= g) := .afterEq rfl h

/-- A command that moves PC has completed (R357). -/
theorem conclude_completes {a : Attempt State} (h : conclude i s a = .next t) (hpc : t.pc ≠ s.pc) :
    ∃ s', a = .ok s' ∧ t = { s' with pc := s.pc + 1#19 } := by
  rcases conclude_next h with hok | ⟨tr, _, rfl⟩
  · exact hok
  · obtain ⟨k, info, heq⟩ := s.takeTrap_eq (encode i) tr
    simp [heq] at hpc

theorem flagsAgree_of_conclude {v : State} {a b : Attempt State} (hab : AgreeOnFlags i a b) (h : conclude i s a = .next t)
    (hpc : t.pc ≠ s.pc) (hv : conclude i v b = .next u) : FlagsAgree i t u := by
  obtain ⟨t', ht', rfl⟩ := conclude_completes h hpc
  obtain ⟨u', rfl, hagree⟩ := hab t' ht'
  obtain rfl : { u' with pc := v.pc + 1#19 } = u := by simpa using hv
  exact hagree

end

/-! The chain of bases of a tower is read by recursion, so that the flags do not matter to it takes a lemma; of the other
reads it holds by unfolding. -/

section
variable (s : State) (c z l b : Bool)

theorem State.needTower_withFlags (n : TwrIx) : (s.withFlags c z l b).needTower n = s.needTower n := by
  simp only [State.needTower, State.needField, State.fieldOf_congr (s := s) (t := s.withFlags c z l b) rfl rfl]

theorem State.needCurve_withFlags (n : CrvIx) : (s.withFlags c z l b).needCurve n = s.needCurve n := by
  simp only [State.needCurve, State.curveOf_congr (s := s) (t := s.withFlags c z l b) rfl rfl rfl]

end

/-- A command that completes writes to its flags what it would write whatever the flags held, because its checks and reads
do not look at them. The writers of R29 are the cases; of every other command nothing is claimed. -/
theorem exec_flagsAgree {i : Instr} {s t u : State} {c z l b : Bool} (h : exec i s = .next t) (hpc : t.pc ≠ s.pc)
    (hu : exec i (s.withFlags c z l b) = .next u) : FlagsAgree i t u := by
  cases i with
  | add | sub | shl1 | shr1 | shl | shr => exact flagsAgree_of_conclude (.ok (.setC rfl rfl)) h hpc hu
  | cmp => exact flagsAgree_of_conclude (.ok (.setZL rfl rfl)) h hpc hu
  | jacobi => exact flagsAgree_of_conclude (.after fun _ => .ok (.setZL rfl rfl)) h hpc hu
  | btst => exact flagsAgree_of_conclude (.ok (.setT rfl rfl)) h hpc hu
  | fisz => exact flagsAgree_of_conclude (.after fun _ => .ok (.setT rfl rfl)) h hpc hu
  | feq => exact flagsAgree_of_conclude (.after fun _ => .after fun _ => .ok (.setT rfl rfl)) h hpc hu
  | fsqrt rd rs1 =>
    refine flagsAgree_of_conclude (.after fun f => ?_) h hpc hu
    have hval : (s.withFlags c z l b).fpVal f rs1 = s.fpVal f rs1 := rfl
    rw [hval]
    split
    · exact .ok (.setT rfl rfl)
    · exact .ok (.setT rfl rfl)
  | eisz =>
    exact flagsAgree_of_conclude (.afterEq (s.needTower_withFlags c z l b _) fun _ => .after fun _ => .after fun _ =>
      .ok (.setT rfl rfl)) h hpc hu
  | eeq =>
    exact flagsAgree_of_conclude (.afterEq (s.needTower_withFlags c z l b _) fun _ => .after fun _ => .after fun _ =>
      .after fun _ => .ok (.setT rfl rfl)) h hpc hu
  | pisinf | ponc =>
    exact flagsAgree_of_conclude (.afterEq (s.needCurve_withFlags c z l b _) fun _ => .after fun _ => .after fun _ =>
      .ok (.setT rfl rfl)) h hpc hu
  | peq =>
    exact flagsAgree_of_conclude (.afterEq (s.needCurve_withFlags c z l b _) fun _ => .after fun _ => .after fun _ =>
      .after fun _ => .ok (.setT rfl rfl)) h hpc hu
  | csrw rd csr =>
    refine flagsAgree_of_conclude (.after fun _ => .after fun _ => ?_) h hpc hu
    split
    · exact .after fun _ => .ok .setFlags
    · next h6 =>
      have hne : csr ≠ 6#18 := by rintro rfl; exact h6 rfl
      exact .after fun _ => .ok (.of_writes_none (by simpa [writesC]) (by simpa [writesZL]) (by simpa [writesT]))
  | _ => exact .of_writes_none rfl rfl rfl

/-- Settles O13, from the flags a command leaves (`exec_flagsKept`) and those it writes (`exec_flagsAgree`). -/
theorem flagWriters : Obligations.FlagWriters :=
  ⟨fun _ _ _ h => exec_flagsKept h, fun _ _ _ _ _ _ _ _ h hpc hu => exec_flagsAgree h hpc hu⟩

end Sys2Proof.Machine
end

section
/-! What the memory rule R73 of 20_memory.md says: which data accesses raise AddressFault, and that nothing else does. -/

namespace Sys2Proof.Machine

/-! ### Attempts that raise no AddressFault -/

/-- The kind of what a command raises: a data access raises AddressFault (R41, R356). -/
def Trap.faultKind : Trap → FaultKind
  | .kind k => k
  | .data _ => .addressFault

@[simp] theorem Trap.faultKind_kind (k : FaultKind) : (Trap.kind k).faultKind = k := rfl

theorem FaultKind.code_eq_addressFault {k : FaultKind} : k.code = FaultKind.addressFault.code ↔ k = .addressFault := by
  cases k <;> decide

theorem State.takeTrap_err (s : State) (w : Word) (tr : Trap) : (s.takeTrap w tr).err = tr.faultKind.code := by
  cases tr <;> rfl

/-- Whatever `a` raises, it is no AddressFault. -/
def NoAddressFault {α : Type} (a : Attempt α) : Prop := ∀ tr, a = .error tr → tr.faultKind ≠ .addressFault

section
variable {α β : Type}

@[simp] theorem noAddressFault_ok (v : α) : NoAddressFault (.ok v : Attempt α) := by
  simp [NoAddressFault]

@[simp] theorem noAddressFault_error (tr : Trap) :
    NoAddressFault (.error tr : Attempt α) ↔ tr.faultKind ≠ .addressFault := by
  simp [NoAddressFault]

/-- A sequence raises what its first part raises or, once that completes, its second. -/
@[simp] theorem noAddressFault_bind {x : Attempt α} {f : α → Attempt β} :
    NoAddressFault (x >>= f) ↔ NoAddressFault x ∧ ∀ v, x = .ok v → NoAddressFault (f v) := by
  cases x with
  | ok v => simp
  | error tr => simp

theorem noAddressFault_kind {k : FaultKind} (hk : k ≠ .addressFault) : NoAddressFault (.error (.kind k) : Attempt α) :=
  (noAddressFault_error _).mpr hk

@[simp] theorem noAddressFault_raiseIf {bad : Bool} {k : FaultKind} (hk : k ≠ .addressFault) :
    NoAddressFault (raiseIf bad k) := by
  cases bad with
  | false => exact noAddressFault_ok _
  | true => exact noAddressFault_kind hk

@[simp] theorem noAddressFault_orRaise {v : Option α} {k : FaultKind} (hk : k ≠ .addressFault) :
    NoAddressFault (orRaise v k) := by
  cases v with
  | some a => exact noAddressFault_ok a
  | none => exact noAddressFault_kind hk

/-- A read guarded by a condition, as those of tagged registers are. -/
theorem noAddressFault_ite {p : Prop} [Decidable p] {v : α} {k : FaultKind} (hk : k ≠ .addressFault) :
    NoAddressFault (if p then .ok v else .error (.kind k) : Attempt α) := by
  split
  · exact noAddressFault_ok v
  · exact noAddressFault_kind hk

end

section
variable (s : State)

/-! No read of a table or of an operand raises AddressFault. -/

@[simp] theorem State.needCtx_noAddressFault (c : CtxIx) : NoAddressFault (s.needCtx c) :=
  noAddressFault_orRaise (by decide)

@[simp] theorem State.needField_noAddressFault (x : Tier) : NoAddressFault (s.needField x) :=
  noAddressFault_orRaise (by decide)

@[simp] theorem State.needTower_noAddressFault (n : TwrIx) : NoAddressFault (s.needTower n) :=
  s.needField_noAddressFault _

@[simp] theorem State.needCurve_noAddressFault (n : CrvIx) : NoAddressFault (s.needCurve n) :=
  noAddressFault_orRaise (by decide)

@[simp] theorem State.needPairing_noAddressFault : NoAddressFault s.needPairing :=
  noAddressFault_orRaise (by decide)

@[simp] theorem State.needRawAt_noAddressFault (n : Nat) : NoAddressFault (s.needRawAt n) :=
  noAddressFault_ite (by decide)

@[simp] theorem State.needRaw_noAddressFault (r : RegIx) : NoAddressFault (s.needRaw r) :=
  s.needRawAt_noAddressFault _

@[simp] theorem State.needFp_noAddressFault (r : RegIx) : NoAddressFault (s.needFp r) := by
  unfold State.needFp
  split
  · exact noAddressFault_kind (by decide)
  · exact noAddressFault_orRaise (by decide)

@[simp] theorem State.needSameTag_noAddressFault (f : FieldView) (r : RegIx) : NoAddressFault (s.needSameTag f r) :=
  noAddressFault_raiseIf (by decide)

@[simp] theorem State.needElem_noAddressFault (f : FieldView) (n : Nat) : NoAddressFault (s.needElem f n) :=
  noAddressFault_ite (by decide)

@[simp] theorem State.needPoint_noAddressFault (f : FieldView) (n : Nat) : NoAddressFault (s.needPoint f n) :=
  noAddressFault_ite (by decide)

@[simp] theorem State.needPair_noAddressFault (f : FieldView) (n : Nat) : NoAddressFault (s.needPair f n) :=
  noAddressFault_ite (by decide)

@[simp] theorem State.elemBinary_noAddressFault (rd rs1 rs2 : RegIx) (n : TwrIx) (op : Fld → Elem → Elem → Elem) :
    NoAddressFault (s.elemBinary rd rs1 rs2 n op) := by
  simp [State.elemBinary]

@[simp] theorem State.elemUnary_noAddressFault (rd rs1 : RegIx) (n : TwrIx) (op : Fld → Elem → Elem) :
    NoAddressFault (s.elemUnary rd rs1 n op) := by
  simp [State.elemUnary]

end

/-! ### Attempts that make one data access -/

/-- How the body `a` of a command treats its data access, given by address and length: outside DM it raises the access,
inside DM, and where there is none, it raises no AddressFault (R73). -/
inductive BoundsChecked {α : Type} (s : State) (a : Attempt α) : Option (Nat × Nat) → Prop
  | noAccess : NoAddressFault a → BoundsChecked s a none
  | outsideDm {addr n : Nat} : ¬ s.InsideDm addr n → a = .error (.data addr) → BoundsChecked s a (some (addr, n))
  | insideDm {addr n : Nat} : s.InsideDm addr n → NoAddressFault a → BoundsChecked s a (some (addr, n))

section
variable {s : State} {α β : Type} {acc : Option (Nat × Nat)}

theorem State.admits_iff {addr n : Nat} : s.admits addr n = true ↔ s.InsideDm addr n := by
  simp [State.admits]

theorem BoundsChecked.readMem {addr n : Nat} : BoundsChecked s (s.readMem addr n) (some (addr, n)) := by
  by_cases h : s.InsideDm addr n
  · exact .insideDm h (by simp [State.readMem_of_admits (State.admits_iff.mpr h)])
  · exact .outsideDm h (by simp [State.readMem, State.admits_iff, h])

theorem BoundsChecked.writeMem {addr n : Nat} {bytes : List Byte} (hlen : bytes.length = n) :
    BoundsChecked s (s.writeMem addr bytes) (some (addr, n)) := by
  subst hlen
  by_cases h : s.InsideDm addr bytes.length
  · exact .insideDm h (by simp [State.writeMem_of_admits (State.admits_iff.mpr h)])
  · exact .outsideDm h (by simp [State.writeMem, State.admits_iff, h])

/-- What follows the access does not change how it is treated. -/
theorem BoundsChecked.bind {x : Attempt α} {f : α → Attempt β} (hx : BoundsChecked s x acc)
    (hf : ∀ v, NoAddressFault (f v)) : BoundsChecked s (x >>= f) acc := by
  cases hx with
  | noAccess hx => exact .noAccess (by simp [hx, hf])
  | outsideDm hout hx => exact .outsideDm hout (by simp [hx])
  | insideDm hin hx => exact .insideDm hin (by simp [hx, hf])

end

/-! ### The end of a command -/

section
variable {s t : State} {acc : Option (Nat × Nat)} {o : Out}

/-- The answer `o` of a command whose data access from `s` is `acc`, as R73 has it. -/
def AnswersAccess (s : State) (acc : Option (Nat × Nat)) (o : Out) : Prop :=
  (∀ addr n, acc = some (addr, n) →
    (¬ s.InsideDm addr n → o = .next (s.faulted .addressFault (BitVec.ofNat 32 addr))) ∧
    (s.InsideDm addr n → ∀ info, o ≠ .next (s.faulted .addressFault info))) ∧
  (acc = none → ∀ info, o ≠ .next (s.faulted .addressFault info))

theorem answersAccess_none (h : ∀ info, o ≠ .next (s.faulted .addressFault info)) : AnswersAccess s none o :=
  ⟨by simp, fun _ => h⟩

/-- A command that does not end in FAULT has raised nothing. -/
theorem answersAccess_of_run (h : t.run ≠ .fault) : AnswersAccess s none (.next t) := by
  refine answersAccess_none fun info heq => h ?_
  obtain rfl : t = s.faulted .addressFault info := by simpa using heq
  rfl

/-- A completed command has moved PC and a fault has recorded its kind, so only AddressFault ends in the state of one. -/
theorem conclude_ne_addressFault {i : Instr} {a : Attempt State} (ha : NoAddressFault a) (info : Word) :
    conclude i s a ≠ .next (s.faulted .addressFault info) := by
  intro h
  rcases conclude_next h with ⟨s', -, heq⟩ | ⟨tr, hraised, heq⟩
  · have hpc : s.pc = s.pc + 1#19 := congrArg State.pc heq
    simp at hpc
  · have herr : FaultKind.addressFault.code = (s.takeTrap (encode i) tr).err := congrArg State.err heq
    rw [State.takeTrap_err] at herr
    exact ha tr hraised (FaultKind.code_eq_addressFault.mp herr.symm)

theorem answersAccess_of_conclude {i : Instr} {a : Attempt State} (h : BoundsChecked s a acc) :
    AnswersAccess s acc (conclude i s a) := by
  cases h with
  | noAccess ha => exact answersAccess_none (conclude_ne_addressFault ha)
  | outsideDm hout ha =>
    refine ⟨?_, by simp⟩
    rintro _ _ ⟨⟩
    exact ⟨fun _ => by rw [ha]; rfl, fun hin => absurd hin hout⟩
  | insideDm hin ha =>
    refine ⟨?_, by simp⟩
    rintro _ _ ⟨⟩
    exact ⟨fun hout => absurd hin hout, fun _ => conclude_ne_addressFault ha⟩

/-- A command without a data access, by the checks and reads of its body. -/
theorem answersAccess_of_noAddressFault {i : Instr} {a : Attempt State} (h : NoAddressFault a) :
    AnswersAccess s none (conclude i s a) := answersAccess_of_conclude (.noAccess h)

end

/-! ### The memory commands -/

section
variable (s : State)

theorem digitsBytes_length (ds : List Int) : (digitsBytes ds).length = 2 * ds.length := by
  simp [digitsBytes, digitBytes, List.length_flatMap, Nat.mul_comm]

theorem answersAccess_ld (rd rs1 : RegIx) (imm : Imm12) :
    AnswersAccess s (s.dataAccess (.ld rd rs1 imm)) (execLd rd rs1 imm s) :=
  answersAccess_of_conclude (BoundsChecked.readMem.bind fun _ => noAddressFault_ok _)

theorem answersAccess_st (rd rs1 : RegIx) (imm : Imm12) :
    AnswersAccess s (s.dataAccess (.st rd rs1 imm)) (execSt rd rs1 imm s) :=
  answersAccess_of_conclude (.writeMem (leBytes_length _ _))

/-- FENC comes to its write when x[rd] is an element of a valid context. -/
theorem answersAccess_fenc (rd rs1 : RegIx) : AnswersAccess s (s.dataAccess (.fenc rd rs1)) (execFenc rd rs1 s) := by
  refine answersAccess_of_conclude ?_
  cases htag : s.tag rd with
  | raw =>
    simp only [State.dataAccess, State.needFp, htag]
    exact .noAccess (noAddressFault_kind (by decide))
  | fp c =>
    cases hctx : s.ctxAt c with
    | none =>
      simp only [State.dataAccess, State.needFp, htag, hctx]
      exact .noAccess (noAddressFault_kind (by decide))
    | some e =>
      simp only [State.dataAccess, State.needFp, htag, hctx]
      exact .writeMem (beBytes_length _ _)

/-- FDEC comes to its read when its context is valid. -/
theorem answersAccess_fdec (rd rs1 : RegIx) (c : CtxIx) :
    AnswersAccess s (s.dataAccess (.fdec rd rs1 c)) (execFdec rd rs1 c s) := by
  refine answersAccess_of_conclude ?_
  cases hctx : s.ctxAt c with
  | none =>
    simp only [State.dataAccess, State.needCtx, hctx]
    exact .noAccess (noAddressFault_kind (by decide))
  | some e =>
    simp only [State.dataAccess, State.needCtx, hctx]
    exact BoundsChecked.readMem.bind fun _ => by simp

/-- WNAFENC comes to its write when the width is not 0 and x[rs1] is RAW. -/
theorem answersAccess_wnafenc (rd rs1 rs2 : RegIx) (w : BitVec 4) :
    AnswersAccess s (s.dataAccess (.wnafenc rd rs1 rs2 w)) (execWnafenc rd rs1 rs2 w s) := by
  refine answersAccess_of_conclude ?_
  by_cases hw : w.toNat = 0
  · have hacc : s.dataAccess (.wnafenc rd rs1 rs2 w) = none := if_pos (.inl hw)
    rw [hacc]
    exact .noAccess (by simp [hw])
  · by_cases htag : s.tag rs1 = .raw
    · have hacc : s.dataAccess (.wnafenc rd rs1 rs2 w) = some (s.val rs2, 2 * (wnaf (s.val rs1) w.toNat).length) :=
        if_neg (by simp [hw, htag])
      rw [hacc, State.needRaw_eq_ok.mpr ⟨htag, rfl⟩, raiseIf_eq_ok (u := ()).mpr (decide_eq_false hw)]
      exact (BoundsChecked.writeMem (digitsBytes_length _)).bind fun _ => noAddressFault_ok _
    · have hacc : s.dataAccess (.wnafenc rd rs1 rs2 w) = none := if_pos (.inr htag)
      rw [hacc]
      exact .noAccess (by simp [State.needRaw_eq_ok, htag])

/-- WNAFDEC comes to its read when the count in x[rs1] is RAW and at most BITS + 1. -/
theorem answersAccess_wnafdec (rd rs1 rs2 : RegIx) :
    AnswersAccess s (s.dataAccess (.wnafdec rd rs1 rs2)) (execWnafdec rd rs1 rs2 s) := by
  refine answersAccess_of_conclude ?_
  by_cases htag : s.tag rs1 = .raw
  · by_cases hn : s.par.bits + 1 < s.val rs1
    · have hacc : s.dataAccess (.wnafdec rd rs1 rs2) = none := if_pos (.inr hn)
      rw [hacc, State.needRaw_eq_ok.mpr ⟨htag, rfl⟩]
      exact .noAccess (by simp [hn])
    · have hacc : s.dataAccess (.wnafdec rd rs1 rs2) = some (s.val rs2, 2 * s.val rs1) :=
        if_neg (by simp [hn, htag])
      rw [hacc, State.needRaw_eq_ok.mpr ⟨htag, rfl⟩, Attempt.ok_bind, raiseIf_eq_ok (u := ()).mpr (decide_eq_false hn)]
      exact BoundsChecked.readMem.bind fun _ => by simp
  · have hacc : s.dataAccess (.wnafdec rd rs1 rs2) = none := if_pos (.inl htag)
    rw [hacc]
    exact .noAccess (by simp [State.needRaw_eq_ok, htag])

end

/-! ### Every command -/

/-- Every command treats its data access as R73 has it. The cases are the commands that cannot fault, which leave STATE at
RUN or at HALTED, the six memory commands, and those whose checks and operand reads raise other kinds only; of the last,
CSRW and FSQRT branch after their checks. -/
theorem exec_answersAccess {s : State} (hrun : s.run = .run) (i : Instr) :
    AnswersAccess s (s.dataAccess i) (exec i s) := by
  have hlive : s.run ≠ .fault := by simp [hrun]
  cases i with
  | halt => exact answersAccess_of_run RunState.noConfusion
  | jmp | bs | bc | nop | li | moval | movah | setal | setah | mul | bitlen | add | sub | shl1 | shr1 | shl | shr | cmp |
    btst => exact answersAccess_of_run hlive
  | ld rd rs1 imm => exact answersAccess_ld s rd rs1 imm
  | st rd rs1 imm => exact answersAccess_st s rd rs1 imm
  | fenc rd rs1 => exact answersAccess_fenc s rd rs1
  | fdec rd rs1 c => exact answersAccess_fdec s rd rs1 c
  | wnafenc rd rs1 rs2 w => exact answersAccess_wnafenc s rd rs1 rs2 w
  | wnafdec rd rs1 rs2 => exact answersAccess_wnafdec s rd rs1 rs2
  | csrw rd csr =>
    by_cases h6 : csr.toNat = 6
    · exact answersAccess_of_noAddressFault (by simp [h6])
    · exact answersAccess_of_noAddressFault (by simp [h6])
  | fsqrt rd rs1 =>
    refine answersAccess_of_noAddressFault (noAddressFault_bind.mpr ⟨s.needFp_noAddressFault rs1, fun f _ => ?_⟩)
    split
    · exact noAddressFault_ok _
    · exact noAddressFault_ok _
  | _ => exact answersAccess_of_noAddressFault (by simp)

/-- Settles O18, command by command (`exec_answersAccess`). -/
theorem dataAccessBounds : Obligations.DataAccessBounds :=
  fun _ i hrun => exec_answersAccess hrun i

end Sys2Proof.Machine
end

section
/-! What the encoding rules R104 to R106 of 30_encoding.md say of the words outside the opcode map: a word that decodes is
the word of a command, which lies in a row of the map, so the step takes every other word as illegal. -/

namespace Sys2Proof

/-! ### Words and their fields (R101, R102) -/

theorem Fields.word_ofWord (w : Word) : (Fields.ofWord w).word = w := by
  simp only [Fields.word, Fields.ofWord]
  rw [BitVec.extractLsb'_append_extractLsb'_eq_extractLsb' (start₂ := 24) (start₁ := 18) rfl,
    BitVec.extractLsb'_append_extractLsb'_eq_extractLsb' (start₂ := 18) (start₁ := 12) rfl,
    BitVec.extractLsb'_append_extractLsb'_eq_extractLsb' (start₂ := 12) (start₁ := 6) rfl,
    BitVec.extractLsb'_append_extractLsb'_eq_extractLsb' (start₂ := 6) (start₁ := 0) rfl]
  exact BitVec.extractLsb'_eq_self

theorem Fields.imm18_rs1 (f : Fields) : f.imm18.extractLsb' 12 6 = f.rs1 :=
  (BitVec.extractLsb'_append_eq_of_le (w := 6) (by decide)).trans BitVec.extractLsb'_append_eq_left

theorem Fields.imm18_rs2 (f : Fields) : f.imm18.extractLsb' 6 6 = f.rs2 :=
  (BitVec.extractLsb'_append_eq_of_le (w := 6) (by decide)).trans BitVec.extractLsb'_append_eq_right

theorem Fields.imm18_fn (f : Fields) : f.imm18.extractLsb' 0 6 = f.fn := BitVec.extractLsb'_append_eq_right

theorem Fields.imm12_rs2 (f : Fields) : f.imm12.extractLsb' 6 6 = f.rs2 := BitVec.extractLsb'_append_eq_left

theorem Fields.imm12_fn (f : Fields) : f.imm12.extractLsb' 0 6 = f.fn := BitVec.extractLsb'_append_eq_right

/-! ### A field whose reserved bits are zero holds its operands and nothing else (R105) -/

theorem isZero6_iff {x : Field6} : isZero6 x = true ↔ x = 0#6 := beq_iff_eq
theorem wide2_low2 : ∀ {x : Field6}, fits2 x = true → wide2 (low2 x) = x := by decide
theorem wide3_low3 : ∀ {x : Field6}, fits3 x = true → wide3 (low3 x) = x := by decide
theorem wide4_low4 : ∀ {x : Field6}, fits4 x = true → wide4 (low4 x) = x := by decide
theorem slotPair_split : ∀ {x : Field6}, fits4 x = true → slotPair (low2 x) (x.extractLsb' 2 2) = x := by decide
theorem ctxdefFn_split : ∀ {x : Field6}, fits3 x = true → 0#3 ++ x.extractLsb' 2 1 ++ low2 x = x := by decide
theorem twrdefFn_split : ∀ {x : Field6}, x.extractLsb' 5 1 = 0#1 →
    0#1 ++ x.extractLsb' 2 3 ++ x.extractLsb' 1 1 ++ x.extractLsb' 0 1 = x := by decide
theorem crvdefFn_split : ∀ x : Field6, x.extractLsb' 3 3 ++ x.extractLsb' 2 1 ++ low2 x = x := by decide
theorem prgdefRd_split : ∀ {x : Field6}, x.extractLsb' 5 1 = 0#1 →
    0#1 ++ BitVec.ofBool (x.extractLsb' 4 1 == 1#1) ++ x.extractLsb' 2 2 ++ low2 x = x := by decide

theorem Flag.code_ofCode : ∀ b : BitVec 2, (Flag.ofCode b).code = b := by decide
theorem Strategy.bit_ofBit : ∀ b : BitVec 1, (Strategy.ofBit b).bit = b := by decide
theorem Degree.bit_ofBit : ∀ b : BitVec 1, (Degree.ofBit b).bit = b := by decide
theorem FieldSel.kindBit_ofBits : ∀ (k : BitVec 1) (n : BitVec 3), (FieldSel.ofBits k n).kindBit = k := by decide
theorem FieldSel.num_ofBits (k : BitVec 1) (n : BitVec 3) : (FieldSel.ofBits k n).num = n := rfl

/-! ### A word that decodes is the word of what it decodes to (R104) -/

theorem accept_eq_ok {b : Bool} {m : String} {i j : Instr} : accept b m i = .ok j ↔ b = true ∧ j = i := by
  cases b with
  | true => simp [accept, eq_comm]
  | false => simp [accept]

theorem opcode_of_toNat {op : BitVec 8} {n : Nat} (h : op.toNat = n) : op = BitVec.ofNat 8 n := by
  rw [← h, BitVec.ofNat_toNat, BitVec.setWidth_eq]

theorem ok_eq_ok {i j : Instr} : (.ok i : Except Reject Instr) = .ok j ↔ j = i := by simp [eq_comm]

/-- Each branch of the map read forwards names a command with the opcode of that branch; what it requires of the fields
makes the operands it reads off them fill the word. -/
theorem encodeFields_of_decodeFields {f : Fields} {i : Instr} (h : decodeFields f = .ok i) : encodeFields i = f := by
  obtain ⟨op, rd, rs1, rs2, fn⟩ := f
  unfold decodeFields at h
  split at h
  case h_89 => cases h -- no command has this opcode
  all_goals
    next hop =>
    obtain rfl := opcode_of_toNat hop
    simp only [accept_eq_ok, ok_eq_ok, Bool.and_eq_true, isZero6_iff, beq_iff_eq] at h
    simp only [h, encodeFields, fieldsZ, fieldsI, fieldsM, fieldsR, Fields.imm18_rs1, Fields.imm18_rs2,
      Fields.imm18_fn, Fields.imm12_rs2, Fields.imm12_fn, wide2_low2, wide3_low3, wide4_low4, slotPair_split,
      ctxdefFn_split, twrdefFn_split, crvdefFn_split, prgdefRd_split, Flag.code_ofCode, Strategy.bit_ofBit,
      Degree.bit_ofBit, FieldSel.kindBit_ofBits, FieldSel.num_ofBits]

theorem encode_of_decode {w : Word} {i : Instr} (h : decode w = .ok i) : encode i = w := by
  rw [encode, encodeFields_of_decodeFields h, Fields.word_ofWord]

end Sys2Proof

namespace Sys2Proof.Laws.OpcodeRow

/-- The word of every command lies in the row that bears its mnemonic: the lemmas of Laws/PerInstr, put together. -/
theorem encode_in_map : ∀ i : Instr, OpcodeRow.Statement i
  | .nop => nop | .halt => halt | .jmp .. => jmp .. | .bs .. => bs .. | .bc .. => bc .. | .li .. => li ..
  | .mov .. => mov .. | .ld .. => ld .. | .st .. => st .. | .moval .. => moval .. | .movah .. => movah ..
  | .setal .. => setal .. | .setah .. => setah .. | .csrr .. => csrr .. | .csrw .. => csrw .. | .add .. => add ..
  | .sub .. => sub .. | .mul .. => mul .. | .shl1 .. => shl1 .. | .shr1 .. => shr1 .. | .shl .. => shl ..
  | .shr .. => shr .. | .cmp .. => cmp .. | .bitlen .. => bitlen .. | .btst .. => btst .. | .ctxdef .. => ctxdef ..
  | .redc .. => redc .. | .bred .. => bred .. | .modadd .. => modadd .. | .modsub .. => modsub ..
  | .modmul .. => modmul .. | .modinv .. => modinv .. | .modpow .. => modpow .. | .jacobi .. => jacobi ..
  | .fzero .. => fzero .. | .fone .. => fone .. | .ffromi .. => ffromi .. | .ftoi .. => ftoi .. | .fadd .. => fadd ..
  | .fsub .. => fsub .. | .fneg .. => fneg .. | .fmul .. => fmul .. | .fsqr .. => fsqr .. | .finv .. => finv ..
  | .fpow .. => fpow .. | .fsqrt .. => fsqrt .. | .fisz .. => fisz .. | .feq .. => feq .. | .fenc .. => fenc ..
  | .fdec .. => fdec .. | .fbinv .. => fbinv .. | .twrdef .. => twrdef .. | .ezero .. => ezero ..
  | .eone .. => eone .. | .eadd .. => eadd .. | .esub .. => esub .. | .eneg .. => eneg .. | .emul .. => emul ..
  | .esqr .. => esqr .. | .einv .. => einv .. | .epow .. => epow .. | .eisz .. => eisz .. | .eeq .. => eeq ..
  | .econj .. => econj .. | .efrob .. => efrob .. | .ebinv .. => ebinv .. | .crvdef .. => crvdef ..
  | .plift .. => plift .. | .pdbl .. => pdbl .. | .padd .. => padd .. | .pmadd .. => pmadd .. | .pneg .. => pneg ..
  | .pisinf .. => pisinf .. | .paff .. => paff .. | .ponc .. => ponc .. | .peq .. => peq .. | .psmul .. => psmul ..
  | .psmul2 .. => psmul2 .. | .pinf .. => pinf .. | .wnafenc .. => wnafenc .. | .wnafdec .. => wnafdec ..
  | .prgdef .. => prgdef .. | .precg1 .. => precg1 .. | .precg2 .. => precg2 .. | .mloop .. => mloop ..
  | .dmloop .. => dmloop .. | .fexp .. => fexp .. | .rpair .. => rpair ..

end Sys2Proof.Laws.OpcodeRow

namespace Sys2Proof

theorem exists_row_of_decode {w : Word} {i : Instr} (h : decode w = .ok i) :
    ∃ row ∈ opcodeMap, w &&& row.mask = row.pattern := by
  obtain ⟨row, hrow, -, hmatch⟩ := Laws.OpcodeRow.encode_in_map i
  exact ⟨row, hrow, encode_of_decode h ▸ hmatch⟩

/-! ### The opcodes of the map (R104, R106) -/

theorem opcode_toNat (w : Word) : (Fields.ofWord w).op.toNat = w.toNat / 2 ^ 24 := by
  simp only [Fields.ofWord, BitVec.extractLsb'_toNat, Nat.shiftRight_eq_div_pow]
  omega

/-- Every mask of the map covers the whole opcode. -/
theorem opcodeMap_mask_op : ∀ row ∈ opcodeMap, (Fields.ofWord row.mask).op = BitVec.allOnes 8 := by decide

theorem op_of_matches {w : Word} {row : OpcodeRow} (hrow : row ∈ opcodeMap) (h : w &&& row.mask = row.pattern) :
    (Fields.ofWord w).op = (Fields.ofWord row.pattern).op := by
  calc (Fields.ofWord w).op
      = (Fields.ofWord w).op &&& (Fields.ofWord row.mask).op := by rw [opcodeMap_mask_op row hrow, BitVec.and_allOnes]
    _ = (Fields.ofWord (w &&& row.mask)).op := BitVec.extractLsb'_and.symm
    _ = (Fields.ofWord row.pattern).op := by rw [h]

/-- The opcodes that R106 lists as assigned to no command. -/
abbrev UnassignedOpcode (op : Nat) : Prop :=
  op = 0x0F ∨ (0x1A ≤ op ∧ op ≤ 0x1F) ∨ (0x29 ≤ op ∧ op ≤ 0x2F) ∨ (0x41 ≤ op ∧ op ≤ 0x4F) ∨ op = 0x5F ∨
  (0x6D ≤ op ∧ op ≤ 0x6F) ∨ (0x72 ≤ op ∧ op ≤ 0x7F) ∨ 0x87 ≤ op

theorem opcodeMap_op_assigned : ∀ row ∈ opcodeMap, ¬ UnassignedOpcode (Fields.ofWord row.pattern).op.toNat := by decide

theorem no_row_of_unassigned {w : Word} (h : UnassignedOpcode (w.toNat / 2 ^ 24)) :
    ∀ row ∈ opcodeMap, w &&& row.mask ≠ row.pattern := by
  intro row hrow hmatch
  rw [← opcode_toNat, op_of_matches hrow hmatch] at h
  exact opcodeMap_op_assigned row hrow h

end Sys2Proof

namespace Sys2Proof.Machine

theorem State.takeIllegal_eq_faulted (s : State) (w : Word) : s.takeIllegal w = s.faulted .illegalCommand w := rfl

/-- The step on a word in CM that is no command (R105, R145). -/
theorem step_of_decode_error {s : State} {r : Reject} (hrun : s.run = .run) (hpc : s.pc.toNat < s.par.cmWords)
    (h : decode (s.wordAt s.pc.toNat) = .error r) :
    step s = .next (s.faulted .illegalCommand (s.wordAt s.pc.toNat)) := by
  have hfetch : s.fetch = some (s.wordAt s.pc.toNat) := if_pos hpc
  simp only [step, hrun, hfetch, h, State.takeIllegal_eq_faulted]

/-- Settles O6: a word that decoded would be the word of a command and so match a row; and a matching word has the opcode
of its row, which is assigned. -/
theorem wordsOutsideTheMapAreIllegal : Obligations.WordsOutsideTheMapAreIllegal := by
  refine ⟨fun s hrun hpc hnone => ?_, fun w hop => no_row_of_unassigned hop, by decide⟩
  cases hdec : decode (s.wordAt s.pc.toNat) with
  | error r => exact step_of_decode_error hrun hpc hdec
  | ok i =>
    obtain ⟨row, hrow, hmatch⟩ := exists_row_of_decode hdec
    exact absurd hmatch (hnone row hrow)

end Sys2Proof.Machine
end

section
/-! What the exception rules of 60_exceptions.md say: fault entry is the whole change of a command that faults (R350, R356,
R357, R362), and where the faults of a step come from (R353). -/

namespace Sys2Proof.Machine

/-! ### The fetch (R145, R353) -/

/-- The step past the end of CM (R353). -/
theorem step_past_the_end {s : State} (hrun : s.run = .run) (hpc : s.par.cmWords ≤ s.pc.toNat) :
    step s = .next s.takeFetchFault := by
  have hfetch : s.fetch = none := if_neg (Nat.not_lt.mpr hpc)
  simp only [step, hrun, hfetch]

/-- The step on a word in CM that is a command (R145). -/
theorem step_of_decode_ok {s : State} {i : Instr} (hrun : s.run = .run) (hpc : s.pc.toNat < s.par.cmWords)
    (h : decode (s.wordAt s.pc.toNat) = .ok i) : step s = exec i s := by
  have hfetch : s.fetch = some (s.wordAt s.pc.toNat) := if_pos hpc
  simp only [step, hrun, hfetch, h]

/-- Settles O5: the fetch decides between the fetch fault and a word, and the word either is no command or runs as one. -/
theorem fetchPastTheEndFaults : Obligations.FetchPastTheEndFaults := by
  refine fun s hrun => ⟨fun hpc => step_past_the_end hrun hpc, fun hpc t hstep _ => ?_⟩
  cases hdec : decode (s.wordAt s.pc.toNat) with
  | error r =>
    rw [step_of_decode_error hrun hpc hdec] at hstep
    exact .inl (Host.Outcome.next.inj hstep).symm
  | ok i => exact .inr ⟨i, rfl, step_of_decode_ok hrun hpc hdec ▸ hstep⟩

/-! ### The fault registers and STATE of a command that completes -/

/-- Where the body `a` of a command completes from `s`, ERR, EPC, EINFO and STATE are what they were. -/
def KeepsFaultRegs (s : State) (a : Attempt State) : Prop :=
  ∀ s', a = .ok s' → s'.err = s.err ∧ s'.epc = s.epc ∧ s'.einfo = s.einfo ∧ s'.run = s.run

section
variable {s : State} {α : Type}

@[simp] theorem keepsFaultRegs_ok {t : State} :
    KeepsFaultRegs s (.ok t) ↔ t.err = s.err ∧ t.epc = s.epc ∧ t.einfo = s.einfo ∧ t.run = s.run := by
  simp [KeepsFaultRegs]

/-- The checks and the reads of a command give values, and no state. -/
@[simp] theorem keepsFaultRegs_bind {x : Attempt α} {f : α → Attempt State} :
    KeepsFaultRegs s (x >>= f) ↔ ∀ v, x = .ok v → KeepsFaultRegs s (f v) := by
  cases x with
  | ok v => simp
  | error tr => simp [KeepsFaultRegs]

@[simp] theorem State.setFp_err (f : FieldView) (r : RegIx) (a : Nat) : (s.setFp f r a).err = s.err := by
  simp [State.setFp]
@[simp] theorem State.setFp_epc (f : FieldView) (r : RegIx) (a : Nat) : (s.setFp f r a).epc = s.epc := by
  simp [State.setFp]
@[simp] theorem State.setFp_einfo (f : FieldView) (r : RegIx) (a : Nat) : (s.setFp f r a).einfo = s.einfo := by
  simp [State.setFp]
@[simp] theorem State.setFp_run (f : FieldView) (r : RegIx) (a : Nat) : (s.setFp f r a).run = s.run := by
  simp [State.setFp]

@[simp] theorem State.writeMem_keepsFaultRegs (addr : Nat) (bytes : List Byte) :
    KeepsFaultRegs s (s.writeMem addr bytes) := by
  intro s' hs'
  obtain ⟨-, rfl⟩ := State.writeMem_eq_ok.mp hs'
  simp

@[simp] theorem State.elemBinary_keepsFaultRegs (rd rs1 rs2 : RegIx) (n : TwrIx) (op : Fld → Elem → Elem → Elem) :
    KeepsFaultRegs s (s.elemBinary rd rs1 rs2 n op) := by
  simp [State.elemBinary]

@[simp] theorem State.elemUnary_keepsFaultRegs (rd rs1 : RegIx) (n : TwrIx) (op : Fld → Elem → Elem) :
    KeepsFaultRegs s (s.elemUnary rd rs1 n op) := by
  simp [State.elemUnary]

end

/-! ### The answer of a command (R356, R357) -/

/-- What a command `i` may make of `s`: fault entry with its word, fault entry with the address of its data access, or a
state with the fault registers of `s` that the engine goes on from or that HALT has stopped in. -/
def PreciseAnswer (i : Instr) (s t : State) : Prop :=
  (∃ k, t = s.faulted k (encode i)) ∨
  (∃ addr n, s.dataAccess i = some (addr, n) ∧ t = s.faulted .addressFault (BitVec.ofNat 32 addr)) ∨
  (t.err = s.err ∧ t.epc = s.epc ∧ t.einfo = s.einfo ∧ (t.run = s.run ∨ (i = .halt ∧ t.run = .halted)))

/-- The command answers a next state, and one of those of `PreciseAnswer`. -/
def AnswersPrecisely (i : Instr) (s : State) (o : Out) : Prop := ∃ t, o = .next t ∧ PreciseAnswer i s t

section
variable {i : Instr} {s : State}

/-- By R73 an AddressFault comes from the command's data access, and EINFO is its address. -/
theorem dataAccess_of_addressFault {acc : Option (Nat × Nat)} {info : Word}
    (h : AnswersAccess s acc (.next (s.faulted .addressFault info))) :
    ∃ addr n, acc = some (addr, n) ∧ s.faulted .addressFault info = s.faulted .addressFault (BitVec.ofNat 32 addr) := by
  obtain ⟨hsome, hnone⟩ := h
  cases acc with
  | none => exact absurd rfl (hnone rfl info)
  | some access =>
    obtain ⟨addr, n⟩ := access
    obtain ⟨houtside, hinside⟩ := hsome addr n rfl
    have hout : ¬ s.InsideDm addr n := fun hin => hinside hin info rfl
    exact ⟨addr, n, rfl, Host.Outcome.next.inj (houtside hout)⟩

/-- The end of a command is precise: it completes with what its body keeps, or enters FAULT with its word or, by R73, with
the address of its data access. -/
theorem answersPrecisely_of_conclude {a : Attempt State} (hacc : AnswersAccess s (s.dataAccess i) (conclude i s a))
    (hkeep : KeepsFaultRegs s a) : AnswersPrecisely i s (conclude i s a) := by
  cases a with
  | ok s' =>
    obtain ⟨herr, hepc, heinfo, hrun⟩ := hkeep s' rfl
    exact ⟨_, rfl, .inr (.inr ⟨herr, hepc, heinfo, .inl hrun⟩)⟩
  | error tr =>
    cases tr with
    | kind k => exact ⟨_, rfl, .inl ⟨k, rfl⟩⟩
    | data addr => exact ⟨_, rfl, .inr (.inl (dataAccess_of_addressFault hacc))⟩

end

/-- Every command answers precisely, in whatever state it runs. The cases are HALT, the other commands without a
check, which cannot fault, the six memory commands, whose AddressFaults R73 gives, and those that make no data access; of
the last, CSRW and FSQRT branch after their checks. -/
theorem exec_answersPrecisely (i : Instr) (s : State) : AnswersPrecisely i s (exec i s) := by
  cases i with
  | halt => exact ⟨_, rfl, .inr (.inr ⟨rfl, rfl, rfl, .inr ⟨rfl, rfl⟩⟩)⟩
  | jmp | bs | bc | nop | li | moval | movah | setal | setah | mul | bitlen | add | sub | shl1 | shr1 | shl | shr | cmp |
    btst => exact ⟨_, rfl, .inr (.inr ⟨rfl, rfl, rfl, .inl rfl⟩)⟩
  | ld rd rs1 imm => exact answersPrecisely_of_conclude (answersAccess_ld s rd rs1 imm) (by simp)
  | st rd rs1 imm => exact answersPrecisely_of_conclude (answersAccess_st s rd rs1 imm) (by simp)
  | fenc rd rs1 => exact answersPrecisely_of_conclude (answersAccess_fenc s rd rs1) (by simp)
  | fdec rd rs1 c => exact answersPrecisely_of_conclude (answersAccess_fdec s rd rs1 c) (by simp)
  | wnafenc rd rs1 rs2 w =>
    exact answersPrecisely_of_conclude (answersAccess_wnafenc s rd rs1 rs2 w) (by simp [State.writeMem_eq_ok])
  | wnafdec rd rs1 rs2 => exact answersPrecisely_of_conclude (answersAccess_wnafdec s rd rs1 rs2) (by simp)
  | csrw rd csr =>
    by_cases h6 : csr.toNat = 6
    · exact answersPrecisely_of_conclude (answersAccess_of_noAddressFault (by simp [h6])) (by simp [h6])
    · exact answersPrecisely_of_conclude (answersAccess_of_noAddressFault (by simp [h6])) (by simp [h6])
  | fsqrt rd rs1 =>
    refine answersPrecisely_of_conclude (answersAccess_of_noAddressFault ?_) (keepsFaultRegs_bind.mpr fun f _ => ?_)
    · refine noAddressFault_bind.mpr ⟨s.needFp_noAddressFault rs1, fun f _ => ?_⟩
      cases leastRoot f.ctx.m (s.fpVal f rs1) with
      | none => exact noAddressFault_ok _
      | some r => exact noAddressFault_ok _
    · cases leastRoot f.ctx.m (s.fpVal f rs1) with
      | none => simp
      | some r => simp
  | _ => exact answersPrecisely_of_conclude (answersAccess_of_noAddressFault (by simp)) (by simp)

/-! ### In FAULT (R362) -/

section
variable (s : State) (k : FaultKind) (info : Word)

theorem step_faulted : step (s.faulted k info) = .next (s.faulted k info) := rfl

theorem State.irq_faulted : (s.faulted k info).irq = s.ie := by simp [State.irq, State.faulted]

end

/-- Settles O7, command by command (`exec_answersPrecisely`). -/
theorem faultsArePrecise : Obligations.FaultsArePrecise :=
  ⟨exec_answersPrecisely, fun s k info => ⟨step_faulted s k info, s.irq_faulted k info, rfl⟩, by decide⟩

end Sys2Proof.Machine
end

section
/-! What the encoding rules R100 to R107 of 30_encoding.md say: the encoder and the decoder are inverse, and the decoder
accepts the words of the opcode map. -/

namespace Sys2Proof

/-! ### The fields of a word made of fields (R101, R102) -/

theorem Fields.ofWord_word (f : Fields) : Fields.ofWord f.word = f := by
  obtain ⟨op, rd, rs1, rs2, fn⟩ := f
  simp only [Fields.ofWord, Fields.word, Fields.mk.injEq]
  refine ⟨?_, ?_, ?_, ?_, ?_⟩ <;>
  · apply BitVec.eq_of_getLsbD_eq
    intro i hi
    simp [BitVec.getLsbD_extractLsb']
    grind

theorem Fields.imm18_fieldsI (op : BitVec 8) (rd : Field6) (imm : Imm18) : (fieldsI op rd imm).imm18 = imm := by
  simp only [fieldsI, Fields.imm18]
  rw [BitVec.extractLsb'_append_extractLsb'_eq_extractLsb' (start₂ := 12) (start₁ := 6) rfl,
    BitVec.extractLsb'_append_extractLsb'_eq_extractLsb' (start₂ := 6) (start₁ := 0) rfl]
  exact BitVec.extractLsb'_eq_self

theorem Fields.imm12_fieldsM (op : BitVec 8) (rd rs1 : Field6) (imm : Imm12) : (fieldsM op rd rs1 imm).imm12 = imm := by
  simp only [fieldsM, Fields.imm12]
  rw [BitVec.extractLsb'_append_extractLsb'_eq_extractLsb' (start₂ := 6) (start₁ := 0) rfl]
  exact BitVec.extractLsb'_eq_self

/-! ### What the decoder reads from a field that the encoder wrote -/

@[simp] theorem isZero6_zero : isZero6 0#6 = true := by decide
@[simp] theorem low2_wide2 : ∀ b : BitVec 2, low2 (wide2 b) = b := by decide
@[simp] theorem fits2_wide2 : ∀ b : BitVec 2, fits2 (wide2 b) = true := by decide
@[simp] theorem low3_wide3 : ∀ b : BitVec 3, low3 (wide3 b) = b := by decide
@[simp] theorem fits3_wide3 : ∀ b : BitVec 3, fits3 (wide3 b) = true := by decide
@[simp] theorem low4_wide4 : ∀ b : BitVec 4, low4 (wide4 b) = b := by decide
@[simp] theorem fits4_wide4 : ∀ b : BitVec 4, fits4 (wide4 b) = true := by decide
@[simp] theorem fits4_slotPair : ∀ a b : SlotIx, fits4 (slotPair a b) = true := by decide
@[simp] theorem low2_slotPair : ∀ a b : SlotIx, low2 (slotPair a b) = a := by decide
@[simp] theorem high2_slotPair : ∀ a b : SlotIx, (slotPair a b).extractLsb' 2 2 = b := by decide
@[simp] theorem Flag.ofCode_code (f : Flag) : Flag.ofCode f.code = f := by cases f <;> rfl
@[simp] theorem Strategy.ofBit_bit (s : Strategy) : Strategy.ofBit s.bit = s := by cases s <;> rfl
@[simp] theorem Degree.ofBit_bit (d : Degree) : Degree.ofBit d.bit = d := by cases d <;> rfl
@[simp] theorem FieldSel.ofBits_kindBit (f : FieldSel) : FieldSel.ofBits f.kindBit f.num = f := by
  obtain ⟨tower, num⟩ := f
  cases tower <;> rfl

/-- The fields of CTXDEF's `fn`: strategy bit and context number. -/
theorem ctxdefFn_fields : ∀ (b : BitVec 1) (c : CtxIx), let fn : Field6 := 0#3 ++ b ++ c
    fits3 fn = true ∧ low2 fn = c ∧ fn.extractLsb' 2 1 = b := by decide

/-- The fields of TWRDEF's `fn`: number and kind of the base, and the degree bit. -/
theorem twrdefFn_fields : ∀ (n : BitVec 3) (k d : BitVec 1), let fn : Field6 := 0#1 ++ n ++ k ++ d
    fn.extractLsb' 5 1 = 0#1 ∧ fn.extractLsb' 2 3 = n ∧ fn.extractLsb' 1 1 = k ∧ fn.extractLsb' 0 1 = d := by decide

/-- The fields of CRVDEF's `fn`: number and kind of the field, and the twist code. -/
theorem crvdefFn_fields : ∀ (n : BitVec 3) (k : BitVec 1) (t : BitVec 2), let fn : Field6 := n ++ k ++ t
    fn.extractLsb' 3 3 = n ∧ fn.extractLsb' 2 1 = k ∧ low2 fn = t := by decide

/-- The fields of PRGDEF's `rd`: the sign and the two curve numbers. -/
theorem prgdefRd_fields : ∀ (neg : Bool) (b a : BitVec 2), let rd : Field6 := 0#1 ++ BitVec.ofBool neg ++ b ++ a
    rd.extractLsb' 5 1 = 0#1 ∧ rd.extractLsb' 2 2 = b ∧ low2 rd = a ∧ (rd.extractLsb' 4 1 == 1#1) = neg := by decide

/-- A branch of the map that accepts the command `j`. -/
theorem decodeFields_of_accept {f : Fields} {b : Bool} {m : String} {i j : Instr} (h : decodeFields f = accept b m i)
    (hb : b = true) (hi : i = j) : decodeFields f = .ok j := by
  rw [h, hb, hi]
  rfl

/-- The map read forwards takes the fields of a command back to the command, opcode by opcode. -/
theorem decodeFields_encodeFields (i : Instr) : decodeFields (encodeFields i) = .ok i := by
  cases i with
  | li | csrr | csrw => exact congrArg Except.ok (by simp only [encodeFields, Fields.imm18_fieldsI]; rfl)
  | ld | st => exact congrArg Except.ok (by simp only [encodeFields, Fields.imm12_fieldsM]; rfl)
  | jmp => exact decodeFields_of_accept rfl isZero6_zero (by simp only [encodeFields, Fields.imm18_fieldsI])
  | bs | bc =>
    refine decodeFields_of_accept rfl (fits2_wide2 _) ?_
    simp only [encodeFields, Fields.imm18_fieldsI]
    simp [fieldsI]
  | ctxdef =>
    refine decodeFields_of_accept rfl ?_ ?_
    · simp [encodeFields, fieldsR, ctxdefFn_fields]
    · simp [encodeFields, fieldsR, ctxdefFn_fields]
  | twrdef =>
    refine decodeFields_of_accept rfl ?_ ?_
    · simp [encodeFields, fieldsR, twrdefFn_fields]
    · simp [encodeFields, fieldsR, twrdefFn_fields]
  | crvdef =>
    refine decodeFields_of_accept rfl (fits2_wide2 _) ?_
    simp [encodeFields, fieldsR, crvdefFn_fields]
  | prgdef =>
    refine decodeFields_of_accept rfl ?_ ?_
    · simp [encodeFields, fieldsR, prgdefRd_fields]
    · simp [encodeFields, fieldsR, prgdefRd_fields]
  | nop | halt => exact decodeFields_of_accept rfl rfl rfl
  | _ =>
    refine decodeFields_of_accept rfl ?_ ?_
    · simp [encodeFields, fieldsR]
    · simp [encodeFields, fieldsR]

theorem decode_encode (i : Instr) : decode (encode i) = .ok i := by
  rw [decode, encode, Fields.ofWord_word, decodeFields_encodeFields]

/-- Settles O1: both directions, command by command (`decodeFields_encodeFields`) and row by row
(`encodeFields_of_decodeFields`). -/
theorem decodeAndEncodeAreInverse : Obligations.DecodeAndEncodeAreInverse :=
  ⟨decode_encode, fun _ _ => encode_of_decode⟩

/-! ### The words of the map decode (R104, R105) -/

theorem and_reserved6 : ∀ x : Field6, x &&& 0x3F#6 = 0#6 ↔ isZero6 x = true := by decide
theorem and_reserved2 : ∀ x : Field6, x &&& 0x3C#6 = 0#6 ↔ fits2 x = true := by decide
theorem and_reserved3 : ∀ x : Field6, x &&& 0x38#6 = 0#6 ↔ fits3 x = true := by decide
theorem and_reserved4 : ∀ x : Field6, x &&& 0x30#6 = 0#6 ↔ fits4 x = true := by decide
theorem and_reserved5 : ∀ x : Field6, x &&& 0x20#6 = 0#6 ↔ (x.extractLsb' 5 1 == 0#1) = true := by decide
theorem and_free (x : Field6) : x &&& 0x00#6 = 0#6 ↔ True := by simp
theorem and_opcode (x y : BitVec 8) : x &&& 0xFF#8 = y ↔ x = y := by
  rw [show x &&& 0xFF#8 = x from BitVec.and_allOnes]

/-- "`w & mask = match`" read field by field. -/
def OpcodeRow.MatchesFields (row : OpcodeRow) (f : Fields) : Prop :=
  f.op &&& (Fields.ofWord row.mask).op = (Fields.ofWord row.pattern).op ∧
  f.rd &&& (Fields.ofWord row.mask).rd = (Fields.ofWord row.pattern).rd ∧
  f.rs1 &&& (Fields.ofWord row.mask).rs1 = (Fields.ofWord row.pattern).rs1 ∧
  f.rs2 &&& (Fields.ofWord row.mask).rs2 = (Fields.ofWord row.pattern).rs2 ∧
  f.fn &&& (Fields.ofWord row.mask).fn = (Fields.ofWord row.pattern).fn

theorem OpcodeRow.matchesFields_of_matches {row : OpcodeRow} {w : Word} (h : w &&& row.mask = row.pattern) :
    row.MatchesFields (Fields.ofWord w) := by
  have hfield : ∀ start len, w.extractLsb' start len &&& row.mask.extractLsb' start len =
      row.pattern.extractLsb' start len := fun start len => by rw [← BitVec.extractLsb'_and, h]
  exact ⟨hfield _ _, hfield _ _, hfield _ _, hfield _ _, hfield _ _⟩

/-- Each row fixes the opcode, and its mask covers exactly the bits that the decoder requires to be zero. -/
theorem decodeFields_of_matches : ∀ row ∈ opcodeMap, ∀ f, row.MatchesFields f → ∃ i, decodeFields f = .ok i := by
  simp only [opcodeMap, rowsControl, rowsInteger, rowsModular, rowsPrimeField, rowsExtension, rowsCurve, rowsWnaf,
    rowsPairing, List.cons_append, List.nil_append, List.forall_mem_cons,
    List.not_mem_nil, IsEmpty.forall_iff, implies_true, and_true]
  and_intros
  all_goals
    rintro ⟨op, rd, rs1, rs2, fn⟩ h
    simp only [OpcodeRow.MatchesFields, Fields.ofWord, BitVec.reduceExtractLsb', and_opcode, and_free,
      and_reserved6, and_reserved2, and_reserved3, and_reserved4, and_reserved5] at h
    obtain ⟨rfl, h⟩ := h
  any_goals exact ⟨_, rfl⟩ -- the rows without reserved bits
  all_goals exact ⟨_, decodeFields_of_accept rfl (by simp [h]) rfl⟩

theorem decode_of_matches {row : OpcodeRow} (hrow : row ∈ opcodeMap) {w : Word} (h : w &&& row.mask = row.pattern) :
    ∃ i, decode w = .ok i :=
  decodeFields_of_matches row hrow _ (OpcodeRow.matchesFields_of_matches h)

/-- No two rows have one opcode. -/
theorem opcodeMap_nodup_op : (opcodeMap.map fun row => (Fields.ofWord row.pattern).op).Nodup := by decide

/-- A word matches one row at most. -/
theorem row_unique {w : Word} {row row' : OpcodeRow} (hrow : row ∈ opcodeMap) (hrow' : row' ∈ opcodeMap)
    (h : w &&& row.mask = row.pattern) (h' : w &&& row'.mask = row'.pattern) : row = row' :=
  List.inj_on_of_nodup_map opcodeMap_nodup_op hrow hrow' ((op_of_matches hrow h).symm.trans (op_of_matches hrow' h'))

/-- Settles O2: the words of the rows decode, a word that decodes lies in the row of its command, and in no other. -/
theorem decodeAcceptsExactlyTheOpcodeMap : Obligations.DecodeAcceptsExactlyTheOpcodeMap := by
  refine ⟨rfl, fun w => ⟨⟨?_, ?_⟩, ?_⟩⟩
  · rintro ⟨i, hi⟩
    exact exists_row_of_decode hi
  · rintro ⟨row, hrow, h⟩
    exact decode_of_matches hrow h
  · intro i hi row hrow h
    obtain ⟨row', hrow', hname, h'⟩ := Laws.OpcodeRow.encode_in_map i
    rw [encode_of_decode hi] at h'
    rw [row_unique hrow hrow' h h', hname]

/-- Settles O3: sixteen fixed words, decoded by evaluation. -/
theorem workedEncodings : Obligations.WorkedEncodings := by
  unfold Obligations.WorkedEncodings
  decide

end Sys2Proof
end

section
/-! What a command that completes leaves, in the words of Safety: updates of registers alone, and the results of one
register. -/

namespace Sys2Proof.Machine

/-! ### Parameters (R9) -/

theorem Params.bits_ge {p : Params} (h : p.valid = true) : 32 ≤ p.bits := by
  simp only [Params.valid, Bool.and_eq_true, decide_eq_true_eq] at h
  omega

theorem Params.two_pow_32_le {p : Params} (h : p.valid = true) : 2 ^ 32 ≤ 2 ^ p.bits :=
  Nat.pow_le_pow_right (by decide) (Params.bits_ge h)

theorem Params.limbBits_pos {p : Params} (h : p.valid = true) : 0 < p.limbBits := by
  simp only [Params.valid, Bool.and_eq_true, Bool.or_eq_true, beq_iff_eq, decide_eq_true_eq] at h
  omega

/-! ### Updates of registers alone -/

/-- `t` is `s` but for its registers. -/
def RegsOnly (s t : State) : Prop := t = { s with x := t.x }

section
variable {s t u : State}

theorem RegsOnly.eq (h : RegsOnly s t) : t = { s with x := t.x } := h

theorem RegsOnly.par (h : RegsOnly s t) : t.par = s.par := by rw [h.eq]
theorem RegsOnly.ctx (h : RegsOnly s t) : t.ctx = s.ctx := by rw [h.eq]
theorem RegsOnly.dm (h : RegsOnly s t) : t.dm = s.dm := by rw [h.eq]
theorem RegsOnly.cm (h : RegsOnly s t) : t.cm = s.cm := by rw [h.eq]

theorem RegsOnly.refl (s : State) : RegsOnly s s := rfl

theorem RegsOnly.trans (h1 : RegsOnly s t) (h2 : RegsOnly t u) : RegsOnly s u :=
  h2.eq.trans (by rw [h1.eq])

theorem State.byteAt_congr (h : t.dm = s.dm) (a : Nat) : t.byteAt a = s.byteAt a := by simp only [State.byteAt, h]

theorem State.wordAt_congr (h : t.cm = s.cm) (i : Nat) : t.wordAt i = s.wordAt i := by simp only [State.wordAt, h]

theorem regsOnly_setReg (n v : Nat) (g : Tag) : RegsOnly s (s.setReg n v g) := rfl

theorem regsOnly_setRaw (r : RegIx) (v : Nat) : RegsOnly s (s.setRaw r v) := rfl

theorem regsOnly_setFp (f : FieldView) (r : RegIx) (a : Nat) : RegsOnly s (s.setFp f r a) := rfl

theorem regsOnly_setRegs (n : Nat) (rs : List Reg) : RegsOnly s (s.setRegs n rs) := by
  induction rs generalizing s n with
  | nil => exact .refl s
  | cons r rest ih => exact (regsOnly_setReg n r.val r.tag).trans (ih (n + 1))

theorem regsOnly_setElem (f : FieldView) (n : Nat) (a : Elem) : RegsOnly s (s.setElem f n a) := regsOnly_setRegs _ _

theorem regsOnly_setElems (f : FieldView) (n : Nat) (es : List Elem) : RegsOnly s (s.setElems f n es) := by
  induction es generalizing s n with
  | nil => exact .refl s
  | cons a rest ih => exact (regsOnly_setElem f n a).trans (ih (n + f.k))

theorem regsOnly_setPair (f : FieldView) (n : Nat) (p : Elem × Elem) : RegsOnly s (s.setPair f n p) :=
  (regsOnly_setElem f _ _).trans (regsOnly_setElem f _ _)

theorem regsOnly_setPoint (f : FieldView) (n : Nat) (p : JPoint) : RegsOnly s (s.setPoint f n p) :=
  (regsOnly_setElem f _ _).trans ((regsOnly_setElem f _ _).trans (regsOnly_setElem f _ _))

/-- The state in which a command ends that has made `t` of `s`: PC is at the next command (R27). -/
def State.next (s t : State) : State := { t with pc := s.pc + 1#19 }

@[simp] theorem State.next_par : (s.next t).par = t.par := rfl
@[simp] theorem State.next_regAt (n : Nat) : (s.next t).regAt n = t.regAt n := rfl
@[simp] theorem State.next_val (r : RegIx) : (s.next t).val r = t.val r := rfl
@[simp] theorem State.next_tag (r : RegIx) : (s.next t).tag r = t.tag r := rfl
@[simp] theorem State.next_byteAt (a : Nat) : (s.next t).byteAt a = t.byteAt a := rfl
@[simp] theorem State.next_wordAt (i : Nat) : (s.next t).wordAt i = t.wordAt i := rfl
@[simp] theorem State.next_coordAt (f : FieldView) (n : Nat) : (s.next t).coordAt f n = t.coordAt f n := rfl
@[simp] theorem State.next_elemAt (f : FieldView) (n : Nat) : (s.next t).elemAt f n = t.elemAt f n := rfl
@[simp] theorem State.next_tagged (f : FieldView) (n count : Nat) : (s.next t).tagged f n count = t.tagged f n count := rfl

/-- A command whose body completes (R27, R145). -/
theorem exec_of_body {i : Instr} {a : Attempt State} (hi : exec i s = conclude i s a) (ha : a = .ok t) :
    exec i s = .next (s.next t) := by rw [hi, ha]; rfl

/-- A command whose body raises a kind (R356, R357). -/
theorem faults_of_body {i : Instr} {a : Attempt State} {k : FaultKind} (hi : exec i s = conclude i s a)
    (ha : a = .error (.kind k)) : Faults i s k := by
  rw [Faults, hi, ha]
  rfl

theorem onlyRegisters_next {first count : Nat} (h : RegsOnly s t)
    (hout : ∀ n, (n < first ∨ first + count ≤ n) → t.regAt n = s.regAt n) :
    OnlyRegisters s (s.next t) first count := by
  exact ⟨(congrArg s.next h.eq).trans rfl, hout, fun a => State.byteAt_congr h.dm a, fun i => State.wordAt_congr h.cm i⟩

theorem onlyTruth_setT (b : Bool) : OnlyTruth s (s.next (s.setT b)) b := ⟨rfl, fun _ => rfl, fun _ => rfl⟩

/-! ### Results of one register -/

theorem rawResult_setRaw_mod (rd : RegIx) (v : Nat) :
    RawResult s (s.next (s.setRaw rd v)) rd (v % 2 ^ s.par.bits) := by
  refine ⟨onlyRegisters_next (regsOnly_setRaw rd v) fun n hn => ?_, ?_⟩
  · rw [State.regAt_setRaw, if_neg (by omega)]
  · simp [State.regAt_setRaw]

theorem rawResult_setRaw {rd : RegIx} {v : Nat} (hv : v < 2 ^ s.par.bits) :
    RawResult s (s.next (s.setRaw rd v)) rd v := by
  simpa only [Nat.mod_eq_of_lt hv] using rawResult_setRaw_mod (s := s) rd v

theorem fieldResult_setFp {c : CtxIx} {e : Ctx} {rd : RegIx} {a : Nat} (hadm : e.admitted)
    (hbits : e.m < 2 ^ s.par.bits) (ha : a < e.m) : FieldResult s (s.next (s.setFp (primeView c e) rd a)) c e rd a := by
  have hlt : e.rep s.par.bits a < e.m := Ctx.rep_lt (Ctx.admitted_pos hadm) _ _
  have hreg : (s.setFp (primeView c e) rd a).regAt rd.toNat = { val := e.rep s.par.bits a, tag := .fp c } := by
    simp [State.setFp, State.regAt_setReg, rd.isLt, State.repOf, primeView, FieldView.tag,
      Nat.mod_eq_of_lt (hlt.trans hbits)]
  refine ⟨onlyRegisters_next (regsOnly_setFp _ rd a) fun n hn => ?_, ?_, ?_, ?_⟩
  · rw [State.setFp, State.regAt_setReg, if_neg (by omega)]
  · simp [State.tag, hreg]
  · simpa [State.val, hreg] using hlt
  · simpa [State.val, hreg] using Ctx.logical_rep hadm ha

end

end Sys2Proof.Machine
end

section
/-! What the engine as a whole does and what the control and move commands give (10_state.md, 40_control_move.md). -/

namespace Sys2Proof.Machine

/-! ### The engine as a whole -/

/-- In IDLE, HALTED and FAULT the engine waits for the host (R30). -/
theorem step_of_not_run {s : State} (h : s.run ≠ .run) : step s = .next s := by
  cases hrun : s.run with
  | run => exact absurd hrun h
  | idle | halted | fault => simp only [step, hrun]

/-- Settles O4, from what the fetch gives (`step_of_decode_ok`) and from the run state. -/
theorem stepRunsTheDecodedCommand : Obligations.StepRunsTheDecodedCommand :=
  fun _ => ⟨fun _ hrun hpc hdec => step_of_decode_ok hrun hpc hdec, step_of_not_run⟩

section
variable (par : Params)

theorem resetWith_regAt (n : Nat) : (State.resetWith par).regAt n = { val := 0, tag := .raw } := by
  by_cases h : n < 64
  · simp [State.regAt, State.resetWith, h]
  · exact State.regAt_out _ (Nat.not_lt.mp h)

theorem resetWith_ctxAt (c : CtxIx) : (State.resetWith par).ctxAt c = none := by simp [State.ctxAt, State.resetWith]
theorem resetWith_twrAt (t : TwrIx) : (State.resetWith par).twrAt t = none := by simp [State.twrAt, State.resetWith]
theorem resetWith_crvAt (i : CrvIx) : (State.resetWith par).crvAt i = none := by simp [State.crvAt, State.resetWith]
theorem resetWith_preAt (n : SlotIx) : (State.resetWith par).preAt n = none := by simp [State.preAt, State.resetWith]

/-- The state after a power-on reset is sound (R52). -/
theorem resetWith_inv (h : par.valid = true) : (State.resetWith par).Inv := by
  refine ⟨h, fun r => ?_, Nat.two_pow_pos _, Nat.zero_le _, rfl, rfl, fun c => ?_, fun t => ?_, fun i => ?_, rfl,
    fun n => ?_, rfl, rfl⟩
  · simp [resetWith_regAt, State.regSound]
  · simp [State.ctxEntrySound, resetWith_ctxAt]
  · simp [State.towerLevelSound, resetWith_twrAt]
  · simp [State.curveEntrySound, resetWith_crvAt]
  · simp [State.slotSound, resetWith_preAt]

end

/-- Settles O8: the reset values field by field, and their soundness (`resetWith_inv`). -/
theorem resetValuesAreSound : Obligations.ResetValuesAreSound := by
  refine ⟨fun par hpar => ⟨fun r => ?_, rfl, rfl, rfl, rfl, rfl, rfl, rfl, rfl, rfl, rfl, rfl, rfl,
    resetWith_ctxAt par, resetWith_twrAt par, resetWith_crvAt par, rfl, resetWith_preAt par, rfl, fun _ => rfl,
    fun _ => rfl, resetWith_inv par hpar⟩, rfl, by decide⟩
  simp [State.val, State.tag, resetWith_regAt]

/-! ### NOP, HALT, JMP, BS and BC (R130 to R134) -/

theorem target_toNat (target : Imm18) : (target.zeroExtend 19).toNat = target.toNat := by
  simp only [BitVec.truncate_eq_setWidth, BitVec.toNat_setWidth]
  omega

theorem exec_bs (s : State) (f : Flag) (target : Imm18) :
    ∃ t, exec (.bs f target) s = .next t ∧ t = { s with pc := t.pc } ∧
      (s.flag f = true → t.pc.toNat = target.toNat) ∧ (s.flag f = false → t.pc = s.pc + 1#19) := by
  refine ⟨_, rfl, rfl, fun h => ?_, fun h => ?_⟩
  · rw [if_pos h]; exact target_toNat target
  · rw [if_neg (by simp [h])]

theorem exec_bc (s : State) (f : Flag) (target : Imm18) :
    ∃ t, exec (.bc f target) s = .next t ∧ t = { s with pc := t.pc } ∧
      (s.flag f = false → t.pc.toNat = target.toNat) ∧ (s.flag f = true → t.pc = s.pc + 1#19) := by
  refine ⟨_, rfl, rfl, fun h => ?_, fun h => ?_⟩
  · rw [if_neg (by simp [h])]; exact target_toNat target
  · rw [if_pos h]

/-- Settles O15; the four pairs of a selector and its flag are the values of `State.flag`. -/
theorem controlTransferResults : Obligations.ControlTransferResults := by
  refine fun s => ⟨rfl, rfl, fun target => ⟨_, rfl, rfl, target_toNat target⟩, fun q hq target => ?_⟩
  have hflag : s.flag q.1 = q.2 := by
    simp only [List.mem_cons, List.not_mem_nil, or_false] at hq
    obtain rfl | rfl | rfl | rfl := hq <;> rfl
  rw [← hflag]
  exact ⟨exec_bs s q.1 target, exec_bc s q.1 target⟩

/-! ### LI, MOV, the accumulator and MUL (R135, R136, R139 to R142, R163) -/

/-- The value of any register, x[0] to x[63], fits BITS bits (R21). -/
theorem State.Inv.regAt_lt {s : State} (h : s.Inv) (n : Nat) : (s.regAt n).val < 2 ^ s.par.bits := by
  by_cases hn : n < 64
  · have hr := h.val_lt (BitVec.ofNat 6 n)
    have hto : (BitVec.ofNat 6 n).toNat = n := by simp; omega
    rwa [State.val, hto] at hr
  · simp [State.regAt_out s (Nat.not_lt.mp hn)]

theorem exec_mov {s : State} (h : s.Inv) (rd rs1 : RegIx) {cnt : Field6} (hrs : rs1.toNat + (cnt.toNat + 1) ≤ 64)
    (hrd : rd.toNat + (cnt.toNat + 1) ≤ 64) :
    ∃ t, exec (.mov rd rs1 cnt) s = .next t ∧ OnlyRegisters s t rd.toNat (cnt.toNat + 1) ∧
      ∀ j, j < cnt.toNat + 1 → t.regAt (rd.toNat + j) = s.regAt (rs1.toNat + j) := by
  refine ⟨_, exec_of_body (t := s.setRegs rd.toNat (s.regRange rs1.toNat (cnt.toNat + 1))) rfl ?_,
    onlyRegisters_next (regsOnly_setRegs _ _) fun n hn => ?_, fun j hj => ?_⟩
  · simp [countOf, runsPast_eq_false.mpr hrs, runsPast_eq_false.mpr hrd]
  · rw [State.regAt_setRegs, if_neg (by simp only [State.regRange_length]; omega)]
  · rw [State.next_regAt, State.regAt_setRegs, if_pos (by simp only [State.regRange_length]; omega),
      Nat.add_sub_cancel_left, State.regRange_getD _ _ _ _ hj, Nat.mod_eq_of_lt (h.regAt_lt _)]

theorem mov_faults (s : State) (rd rs1 : RegIx) {cnt : Field6}
    (h : ¬(rs1.toNat + (cnt.toNat + 1) ≤ 64 ∧ rd.toNat + (cnt.toNat + 1) ≤ 64)) :
    Faults (.mov rd rs1 cnt) s .illegalCommand := by
  have hpast : (runsPast rs1.toNat (countOf cnt) || runsPast rd.toNat (countOf cnt)) = true := by
    by_contra hfit
    rw [Bool.not_eq_true, Bool.or_eq_false_iff, runsPast_eq_false, runsPast_eq_false] at hfit
    exact h hfit
  exact faults_of_body rfl (by rw [hpast]; rfl)

/-- Settles O16. A half of ACC is a quotient or a remainder by 2^BITS, so it is below 2^BITS and the other half stays. -/
theorem moveCommands : Obligations.MoveCommands := by
  intro s h rd rs1 rs2
  have hpos : 0 < 2 ^ s.par.bits := Nat.two_pow_pos _
  have hacc : s.acc < 2 ^ s.par.bits * 2 ^ s.par.bits := by rw [← pow_add, ← Nat.two_mul]; exact h.acc
  have hlow : s.acc % 2 ^ s.par.bits < 2 ^ s.par.bits := Nat.mod_lt _ hpos
  refine ⟨fun imm => ?_, fun cnt => ⟨?_, mov_faults s rd rs1⟩, ?_, ?_, ?_, ?_, rfl, ?_⟩
  · have himm : imm.toNat < 2 ^ 32 := imm.isLt.trans (by decide)
    exact ⟨_, rfl, rawResult_setRaw (himm.trans_le (Params.two_pow_32_le h.par))⟩
  · rintro ⟨hrs, hrd⟩
    exact exec_mov h rd rs1 hrs hrd
  · exact ⟨_, rfl, rawResult_setRaw hlow⟩
  · exact ⟨_, rfl, rawResult_setRaw (Nat.div_lt_of_lt_mul hacc)⟩
  · refine ⟨_, rfl, rfl, ?_, ?_⟩
    · rw [Nat.add_comm, Nat.add_mul_mod_self_right, Nat.mod_eq_of_lt (h.val_lt rs1)]
    · rw [Nat.add_comm, Nat.add_mul_div_right _ _ hpos, Nat.div_eq_of_lt (h.val_lt rs1), Nat.zero_add]
  · refine ⟨_, rfl, rfl, ?_, ?_⟩
    · rw [Nat.add_comm, Nat.add_mul_div_right _ _ hpos, Nat.div_eq_of_lt hlow, Nat.zero_add]
    · rw [Nat.add_comm, Nat.add_mul_mod_self_right, Nat.mod_mod]
  · rw [Nat.two_mul, pow_add]
    exact Nat.mul_lt_mul'' (h.val_lt rs1) (h.val_lt rs2)

end Sys2Proof.Machine
end

section
/-! What the commands on control and status registers and the integer commands give (10_state.md section 8,
40_control_move.md section 5, 41_integer.md). -/

namespace Sys2Proof.Machine

/-! ### What the CSRs of more than one field read as (R37, R42, R46) -/

theorem csrCfg_fields {s : State} (h : s.par.valid = true) : CfgFields s.par s.csrCfg ∧ s.csrCfg < 2 ^ 32 := by
  simp only [Params.valid, Bool.and_eq_true, Bool.or_eq_true, beq_iff_eq, decide_eq_true_eq] at h
  simp only [CfgFields, State.csrCfg]
  omega

theorem flags_testBit : ∀ c z l t : Bool, let v := c.toNat + 2 * z.toNat + 4 * l.toNat + 8 * t.toNat
    v.testBit 0 = c ∧ v.testBit 1 = z ∧ v.testBit 2 = l ∧ v.testBit 3 = t ∧ v < 16 := by decide

theorem csrFlags_fields (s : State) : FlagsFields s s.csrFlags := flags_testBit s.c s.z s.l s.t

theorem validBits_lt {α : Type} (es : List (Option α)) : validBits es < 2 ^ es.length := by
  induction es with
  | nil => exact Nat.one_pos
  | cons e rest ih =>
    have := e.isSome.toNat_le
    simp only [validBits, List.length_cons, Nat.pow_succ]
    omega

theorem validBits_testBit {α : Type} (es : List (Option α)) (n : Nat) :
    (validBits es).testBit n = (es.getD n none).isSome := by
  induction es generalizing n with
  | nil => simp [validBits]
  | cons e rest ih =>
    rw [validBits, Nat.add_comm]
    cases n with
    | zero => cases e <;> simp
    | succ n =>
      have := e.isSome.toNat_le
      rw [Nat.testBit_succ, show (2 * validBits rest + e.isSome.toNat) / 2 = validBits rest by omega, ih]
      simp

section
variable {α : Type} {n : Nat} (v : Vector (Option α) n)

theorem vector_validBits_lt : validBits v.toList < 2 ^ n := by simpa using validBits_lt v.toList

theorem vector_validBits_testBit {i : Nat} (h : i < n) : (validBits v.toList).testBit i = v[i].isSome := by
  rw [validBits_testBit]
  simp [List.getD, h]

end

/-- A sum of `b` and a multiple of `2^i` above it has the bits of both side by side. -/
theorem testBit_add_two_pow_mul {i a b : Nat} (h : b < 2 ^ i) (j : Nat) :
    (b + 2 ^ i * a).testBit j = if j < i then b.testBit j else a.testBit (j - i) := by
  rw [Nat.add_comm]
  exact Nat.testBit_two_pow_mul_add a h j

theorem csrDefv_fields (s : State) : DefvFields s s.csrDefv := by
  have hctx := vector_validBits_lt s.ctx
  have htwr := vector_validBits_lt s.twr
  have hcrv := vector_validBits_lt s.crv
  have hpre := vector_validBits_lt s.pre
  have hprg := s.prg.isSome.toNat_le
  have h12 : validBits s.ctx.toList + 2 ^ 4 * validBits s.twr.toList < 2 ^ 12 := by omega
  have h16 : validBits s.ctx.toList + 2 ^ 4 * validBits s.twr.toList + 2 ^ 12 * validBits s.crv.toList < 2 ^ 16 := by
    omega
  have h17 : validBits s.ctx.toList + 2 ^ 4 * validBits s.twr.toList + 2 ^ 12 * validBits s.crv.toList +
      2 ^ 16 * s.prg.isSome.toNat < 2 ^ 17 := by omega
  have hbit : ∀ j, s.csrDefv.testBit j =
      if j < 17 then
        if j < 16 then
          if j < 12 then
            if j < 4 then (validBits s.ctx.toList).testBit j else (validBits s.twr.toList).testBit (j - 4)
          else (validBits s.crv.toList).testBit (j - 12)
        else s.prg.isSome.toNat.testBit (j - 16)
      else (validBits s.pre.toList).testBit (j - 17) := fun j => by
    rw [State.csrDefv, testBit_add_two_pow_mul h17, testBit_add_two_pow_mul h16, testBit_add_two_pow_mul h12,
      testBit_add_two_pow_mul hctx]
  refine ⟨by unfold State.csrDefv; omega, fun c => ?_, fun n => ?_, fun n => ?_, ?_, fun n => ?_⟩
  · have hc := c.isLt
    rw [hbit, if_pos (by omega), if_pos (by omega), if_pos (by omega), if_pos (by omega)]
    exact vector_validBits_testBit s.ctx c.isLt
  · have hn := n.isLt
    rw [hbit, if_pos (by omega), if_pos (by omega), if_pos (by omega), if_neg (by omega), Nat.add_sub_cancel_left]
    exact vector_validBits_testBit s.twr n.isLt
  · have hn := n.isLt
    rw [hbit, if_pos (by omega), if_pos (by omega), if_neg (by omega), Nat.add_sub_cancel_left]
    exact vector_validBits_testBit s.crv n.isLt
  · rw [hbit, if_pos (by omega), if_neg (by omega)]
    cases s.prg.isSome <;> rfl
  · rw [hbit, if_neg (by omega), Nat.add_sub_cancel_left]
    exact vector_validBits_testBit s.pre n.isLt

/-! ### CSRR and CSRW (R143, R144) -/

theorem csrReadable_iff {csr : Imm18} : csrReadable csr = true ↔ csr.toNat ≠ 9 ∧ csr.toNat < 11 := by
  simp only [csrReadable, Bool.or_eq_true, decide_eq_true_eq, beq_iff_eq]
  omega

theorem exec_csrr {s : State} {csr : Imm18} (rd : RegIx) (h9 : csr.toNat ≠ 9) (h11 : csr.toNat < 11) :
    exec (.csrr rd csr) s = .next (s.next (s.setRaw rd (s.csrValue csr.toNat))) :=
  exec_of_body rfl (by rw [csrReadable_iff.mpr ⟨h9, h11⟩]; rfl)

/-- The fault registers are 0 but in FAULT (R39 to R41). -/
theorem State.Inv.faultRegs_of_run {s : State} (h : s.Inv) (hrun : s.run = .run) :
    s.err = 0#8 ∧ s.epc = 0#19 ∧ s.einfo = 0#32 := by
  have hf := h.faultRegs
  simp only [State.faultRegsSound, hrun, Bool.and_eq_true, decide_eq_true_eq] at hf
  obtain ⟨⟨herr, hepc⟩, heinfo⟩ := hf
  exact ⟨herr, hepc, heinfo⟩

/-- What a program reads from each CSR, and that it fits the 32 bits of the register (R36 to R46). -/
theorem csrValue_run {s : State} (h : s.Inv) (hrun : s.run = .run) {n : Nat} (h9 : n ≠ 9) (h11 : n < 11) :
    s.csrValue n < 2 ^ 32 ∧ (n = 0 → s.csrValue n = 0x4D4D0007) ∧ (n = 1 → CfgFields s.par (s.csrValue n)) ∧
    (n = 2 → s.csrValue n = 1) ∧ (n = 3 ∨ n = 4 ∨ n = 5 → s.csrValue n = 0) ∧
    (n = 6 → FlagsFields s (s.csrValue n)) ∧ (n = 7 → s.csrValue n = s.wnafw.toNat) ∧
    (n = 8 → s.csrValue n = s.pc.toNat) ∧ (n = 10 → DefvFields s (s.csrValue n)) := by
  obtain ⟨hcfg, hcfg32⟩ := csrCfg_fields h.par
  obtain ⟨herr, hepc, heinfo⟩ := h.faultRegs_of_run hrun
  have hflags := csrFlags_fields s
  have hdefv := csrDefv_fields s
  have hflags16 : s.csrFlags < 16 := hflags.2.2.2.2
  have hdefv21 : s.csrDefv < 2 ^ 21 := hdefv.1
  have hwnafw := s.wnafw.isLt
  have hpc := s.pc.isLt
  interval_cases n <;> simp_all [State.csrValue, csrId, RunState.code] <;> omega

/-- Settles O19; the value read is below 2^32, so the register holds it whole. -/
theorem csrReads : Obligations.CsrReads := by
  intro s h hrun rd csr
  refine ⟨fun hcsr => faults_of_body rfl ?_, fun h9 h11 => ?_⟩
  · have hbad : csrReadable csr = false := by
      rw [Bool.eq_false_iff, ne_eq, csrReadable_iff]
      omega
    rw [hbad]
    rfl
  · obtain ⟨h32, hvalue⟩ := csrValue_run h hrun h9 h11
    exact ⟨_, _, exec_csrr rd h9 h11, rawResult_setRaw (h32.trans_le (Params.two_pow_32_le h.par)), h32, hvalue⟩

theorem csrWritable_iff {csr : Imm18} : csrWritable csr = true ↔ csr.toNat = 6 ∨ csr.toNat = 7 := by
  simp [csrWritable]

/-- Settles O20: the checks of R144 in their order, then the two writes. -/
theorem csrWrites : Obligations.CsrWrites := by
  intro s h rd csr
  have h16 : s.par.wMax ≤ 15 := by
    have hpar := h.par
    simp only [Params.valid, Bool.and_eq_true, decide_eq_true_eq] at hpar
    omega
  refine ⟨fun h6 h7 => ?_, fun hcsr hv => ?_, fun h6 hv h32 => ?_, fun h7 hv => ?_, fun h6 hv => ?_, fun h7 h1 hmax => ?_⟩
  · have hbad : csrWritable csr = false := by
      rw [Bool.eq_false_iff, ne_eq, csrWritable_iff]
      omega
    exact faults_of_body rfl (by simp [hbad])
  · exact faults_of_body rfl (by simp only [csrWritable_iff.mpr hcsr, hv]; rfl)
  · exact faults_of_body rfl (by simp only [csrWritable_iff.mpr (.inl h6), h6, hv, Nat.not_le.mpr h32]; rfl)
  · have h32 : ¬ 2 ^ 32 ≤ s.val rd := by omega
    have hbad : (decide (s.val rd = 0) || decide (s.par.wMax < s.val rd)) = true := by
      simp only [Bool.or_eq_true, decide_eq_true_eq]
      omega
    exact faults_of_body rfl (by simp only [csrWritable_iff.mpr (.inr h7), h7, h32, hbad]; rfl)
  · have h32 : ¬ 2 ^ 32 ≤ s.val rd := by omega
    exact ⟨_, exec_of_body (t := s.setFlags (s.val rd)) rfl
      (by simp only [csrWritable_iff.mpr (.inl h6), h6, h32, Nat.not_le.mpr hv]; rfl), rfl⟩
  · have h32 : ¬ 2 ^ 32 ≤ s.val rd := by omega
    have hgood : (decide (s.val rd = 0) || decide (s.par.wMax < s.val rd)) = false := by
      simp only [Bool.or_eq_false_iff, decide_eq_false_iff_not]
      omega
    refine ⟨_, exec_of_body (t := { s with wnafw := BitVec.ofNat 4 (s.val rd) }) rfl ?_, rfl, ?_⟩
    · simp only [csrWritable_iff.mpr (.inr h7), h7, h32, hgood]
      rfl
    · exact Nat.mod_eq_of_lt (show s.val rd < 2 ^ 4 by omega)

/-! ### ADD, SUB, CMP, BITLEN and BTST (R161, R162, R168 to R170) -/

theorem add_mod_carryOut {b x y : Nat} (hx : x < 2 ^ b) (hy : y < 2 ^ b) :
    (x + y) % 2 ^ b + 2 ^ b * (carryOut b x y).toNat = x + y := by
  by_cases h : 2 ^ b ≤ x + y
  · rw [carryOut, decide_eq_true h, Nat.mod_eq_sub_mod h, Nat.mod_eq_of_lt (by omega)]
    simp
    omega
  · rw [carryOut, decide_eq_false h, Nat.mod_eq_of_lt (by omega)]
    simp

theorem subMod_borrowOut {b x y : Nat} (hx : x < 2 ^ b) (hy : y < 2 ^ b) :
    subMod (2 ^ b) x y + y = x + 2 ^ b * (borrowOut x y).toNat := by
  by_cases h : x < y
  · have hcast := subMod_cast (Nat.two_pow_pos b) x y
    rw [← Int.add_emod_right, Int.emod_eq_of_lt (by omega) (by omega)] at hcast
    rw [borrowOut, decide_eq_true h]
    simp
    omega
  · rw [borrowOut, decide_eq_false h, subMod_of_le (by omega) hx]
    simp
    omega

theorem two_pow_pred_bitLength_le {v : Nat} (h : bitLength v ≠ 0) : 2 ^ (bitLength v - 1) ≤ v := by
  by_contra hlt
  have := (bitLength_le_iff v (bitLength v - 1)).mpr (by omega)
  omega

/-- Settles O21. -/
theorem integerArithmetic : Obligations.IntegerArithmetic := by
  intro s h rd rs1 rs2
  have ha := h.val_lt rs1
  have hb := h.val_lt rs2
  have hpos : 0 < 2 ^ s.par.bits := Nat.two_pow_pos _
  refine ⟨?_, ?_, rfl, ?_, ?_⟩
  · exact ⟨_, _, carryOut s.par.bits (s.val rs1) (s.val rs2), rfl,
      rawResult_setRaw_mod (s := { s with c := carryOut s.par.bits (s.val rs1) (s.val rs2) }) rd _, Nat.mod_lt _ hpos,
      add_mod_carryOut ha hb⟩
  · have hlt := subMod_lt hpos (s.val rs1) (s.val rs2)
    exact ⟨_, _, borrowOut (s.val rs1) (s.val rs2), rfl,
      rawResult_setRaw (s := { s with c := borrowOut (s.val rs1) (s.val rs2) }) hlt, hlt, subMod_borrowOut ha hb⟩
  · have hlen : bitLength (s.val rs1) ≤ s.par.bits := (bitLength_le_iff _ _).mpr ha
    exact ⟨_, _, rfl, rawResult_setRaw (hlen.trans_lt Nat.lt_two_pow_self), hlen, lt_two_pow_bitLength _,
      two_pow_pred_bitLength_le⟩
  · refine ⟨_, rfl, ?_⟩
    have hbit : bitFlag s.par.bits (s.val rs1) (s.val rs2) =
        (decide (s.val rs2 < s.par.bits) && (s.val rs1).testBit (s.val rs2)) := by
      by_cases hlt : s.val rs2 < s.par.bits <;> simp [bitFlag, hlt]
    rw [← hbit]
    exact onlyTruth_setT _

/-! ### Shifts (R164 to R167) -/

/-- Some bit from `k` on is set exactly when the value reaches `2^k`. -/
theorem two_pow_le_iff_exists_testBit {k a : Nat} : 2 ^ k ≤ a ↔ ∃ j, k ≤ j ∧ a.testBit j = true := by
  constructor
  · intro h
    obtain ⟨j, hj, hbit⟩ := Nat.exists_ge_and_testBit_of_ge_two_pow h
    exact ⟨j, hj, hbit⟩
  · rintro ⟨j, hj, hbit⟩
    exact (Nat.pow_le_pow_right (by decide) hj).trans (Nat.ge_two_pow_of_testBit hbit)

/-- C of SHL: a bit that goes to BITS or above (R166). -/
theorem shiftedOutLeft_iff {w a n : Nat} : shiftedOutLeft w a n = true ↔ ∃ j, w ≤ j + n ∧ a.testBit j = true := by
  unfold shiftedOutLeft
  split
  · next h =>
    rw [decide_eq_true_eq, ← Nat.one_le_iff_ne_zero, ← Nat.pow_zero 2, two_pow_le_iff_exists_testBit]
    exact exists_congr fun j => and_congr_left fun _ => by omega
  · next h =>
    have hsplit : 2 ^ w ≤ a * 2 ^ n ↔ 2 ^ (w - n) ≤ a := by
      have hw : 2 ^ w = 2 ^ (w - n) * 2 ^ n := by rw [← pow_add, Nat.sub_add_cancel (by omega)]
      rw [hw, Nat.mul_le_mul_right_iff (Nat.two_pow_pos n)]
    rw [decide_eq_true_eq, hsplit, two_pow_le_iff_exists_testBit]
    exact exists_congr fun j => and_congr_left fun _ => by omega

/-- C of SHR: a bit below the count (R167). -/
theorem shiftedOutRight_iff {w a n : Nat} (ha : a < 2 ^ w) :
    shiftedOutRight w a n = true ↔ ∃ j, j < n ∧ a.testBit j = true := by
  have hmod : a % 2 ^ n ≠ 0 ↔ ∃ j, j < n ∧ a.testBit j = true := by
    rw [← Nat.one_le_iff_ne_zero, ← Nat.pow_zero 2, two_pow_le_iff_exists_testBit]
    simp [Nat.testBit_mod_two_pow]
  unfold shiftedOutRight
  split
  · next h => rw [decide_eq_true_eq, ← hmod, Nat.mod_eq_of_lt (ha.trans_le (Nat.pow_le_pow_right (by decide) h))]
  · next h => rw [decide_eq_true_eq, hmod]

theorem testBit_shiftLeft_mod {w a n : Nat} (j : Nat) :
    (shiftLeft w a n % 2 ^ w).testBit j = (decide (j < w) && decide (n ≤ j) && a.testBit (j - n)) := by
  rw [Nat.testBit_mod_two_pow]
  unfold shiftLeft
  split
  · next h =>
    by_cases hj : j < w
    · have : ¬ n ≤ j := by omega
      simp [this]
    · simp [hj]
  · rw [← Nat.shiftLeft_eq, Nat.testBit_shiftLeft, Bool.and_assoc]

theorem testBit_shiftRight {w a n : Nat} (ha : a < 2 ^ w) (j : Nat) :
    (shiftRight w a n).testBit j = a.testBit (j + n) := by
  unfold shiftRight
  split
  · next h =>
    rw [Nat.zero_testBit, Nat.testBit_lt_two_pow (ha.trans_le (Nat.pow_le_pow_right (by decide) (by omega)))]
  · rw [← Nat.shiftRight_eq_div_pow, Nat.testBit_shiftRight, Nat.add_comm]

theorem shiftRight_le (w a n : Nat) : shiftRight w a n ≤ a := by
  unfold shiftRight
  split
  · exact Nat.zero_le a
  · exact Nat.div_le_self _ _

/-- SHL1 is SHL by 1, and SHR1 is SHR by 1, in value and in C (BITS is above 1). -/
theorem shiftLeft_one {w : Nat} (hw : 1 < w) (a : Nat) : shiftLeft w a 1 = 2 * a := by
  rw [shiftLeft, if_neg (by omega), Nat.pow_one, Nat.mul_comm]

theorem shiftRight_one {w : Nat} (hw : 1 < w) (a : Nat) : shiftRight w a 1 = a / 2 := by
  rw [shiftRight, if_neg (by omega), Nat.pow_one]

theorem shiftedOutLeft_one {w a : Nat} (hw : 1 < w) (ha : a < 2 ^ w) : shiftedOutLeft w a 1 = a.testBit (w - 1) := by
  rw [Bool.eq_iff_iff, shiftedOutLeft_iff]
  constructor
  · rintro ⟨j, hj, hbit⟩
    have hjw : j < w := by
      by_contra hge
      rw [Nat.testBit_lt_two_pow (ha.trans_le (Nat.pow_le_pow_right (by decide) (by omega)))] at hbit
      exact Bool.false_ne_true hbit
    rwa [show w - 1 = j by omega]
  · exact fun hbit => ⟨w - 1, by omega, hbit⟩

theorem shiftedOutRight_one {w a : Nat} (ha : a < 2 ^ w) : shiftedOutRight w a 1 = a.testBit 0 := by
  rw [Bool.eq_iff_iff, shiftedOutRight_iff ha]
  exact ⟨fun ⟨j, hj, hbit⟩ => by rwa [show j = 0 by omega] at hbit, fun hbit => ⟨0, by omega, hbit⟩⟩

/-- Settles O22: the shifts by one are those by a count of 1. -/
theorem shifts : Obligations.Shifts := by
  intro s h rd rs1 rs2
  have ha := h.val_lt rs1
  have hw : 1 < s.par.bits := (Params.bits_ge h.par).trans_lt' (by decide)
  have hright : ∀ n, shiftRight s.par.bits (s.val rs1) n < 2 ^ s.par.bits := fun n => (shiftRight_le _ _ n).trans_lt ha
  refine ⟨?_, ?_, ?_, ?_⟩
  · refine ⟨_, _, rfl, ?_, testBit_shiftLeft_mod (w := s.par.bits) (a := s.val rs1) (n := 1)⟩
    rw [shiftLeft_one hw, shiftedOutLeft_one hw ha]
    exact rawResult_setRaw_mod (s := { s with c := (s.val rs1).testBit (s.par.bits - 1) }) rd (2 * s.val rs1)
  · refine ⟨_, _, rfl, ?_, testBit_shiftRight (n := 1) ha⟩
    have hlt := hright 1
    rw [shiftRight_one hw] at hlt ⊢
    rw [shiftedOutRight_one ha]
    exact rawResult_setRaw (s := { s with c := (s.val rs1).testBit 0 }) hlt
  · exact ⟨_, _, _, rfl, rawResult_setRaw_mod
      (s := { s with c := shiftedOutLeft s.par.bits (s.val rs1) (s.val rs2) }) rd _, testBit_shiftLeft_mod,
      shiftedOutLeft_iff⟩
  · exact ⟨_, _, _, rfl, rawResult_setRaw
      (s := { s with c := shiftedOutRight s.par.bits (s.val rs1) (s.val rs2) }) (hright _), testBit_shiftRight ha,
      shiftedOutRight_iff ha⟩

end Sys2Proof.Machine
end

section
/-! What the load and store commands give, and the bytes of a number in memory (20_memory.md sections 2 and 3,
40_control_move.md section 4). -/

namespace Sys2Proof.Machine

/-! ### The bytes of a number (R74, R226) -/

theorem leNat_lt (bs : List Byte) : leNat bs < 2 ^ (8 * bs.length) := by
  induction bs with
  | nil => exact Nat.one_pos
  | cons b rest ih =>
    have hb := b.isLt
    simp only [leNat, List.length_cons]
    rw [show 8 * (rest.length + 1) = 8 + 8 * rest.length by ring, Nat.pow_add]
    omega

/-- Byte `j` of the number that bytes spell (R74). -/
theorem leNat_byte (bs : List Byte) (j : Nat) : leNat bs / 2 ^ (8 * j) % 256 = (bs.getD j 0#8).toNat := by
  induction bs generalizing j with
  | nil => simp [leNat]
  | cons b rest ih =>
    have hb := b.isLt
    rw [leNat]
    cases j with
    | zero => simp; omega
    | succ j =>
      rw [show 8 * (j + 1) = 8 + 8 * j by ring, Nat.pow_add, ← Nat.div_div_eq_div_mul,
        show (b.toNat + 256 * leNat rest) / 2 ^ 8 = leNat rest by omega, ih]
      simp

theorem leBytes_getD {v n j : Nat} (h : j < n) : (leBytes v n).getD j 0#8 = BitVec.ofNat 8 (v / 2 ^ (8 * j)) := by
  simp [leBytes, List.getD, h]

theorem beBytes_getD {v n j : Nat} (h : j < n) :
    (beBytes v n).getD j 0#8 = BitVec.ofNat 8 (v / 2 ^ (8 * (n - 1 - j))) := by
  have hlt : n - 1 - j < n := by omega
  simp [beBytes, leBytes, List.getD, h]

theorem State.bytesAt_getD {s : State} {a n j : Nat} (h : j < n) : (s.bytesAt a n).getD j 0#8 = s.byteAt (a + j) := by
  simp [State.bytesAt, List.getD, h]

/-- A number of `n` bytes is determined by them (R226). -/
theorem eq_of_bytes {n u v : Nat} (hu : u < 2 ^ (8 * n)) (hv : v < 2 ^ (8 * n))
    (h : ∀ j, j < n → u / 2 ^ (8 * j) % 256 = v / 2 ^ (8 * j) % 256) : u = v := by
  refine Nat.eq_of_testBit_eq fun i => ?_
  by_cases hi : i < 8 * n
  · have hbyte := congrArg (fun x => x.testBit (i % 8)) (h (i / 8) (by omega))
    have h8 : i % 8 < 8 := Nat.mod_lt _ (by decide)
    simp only [show (256 : Nat) = 2 ^ 8 from rfl, Nat.testBit_mod_two_pow, h8, decide_true, Bool.true_and,
      Nat.testBit_div_two_pow] at hbyte
    rwa [show i % 8 + 8 * (i / 8) = i by omega] at hbyte
  · rw [Nat.testBit_lt_two_pow (hu.trans_le (Nat.pow_le_pow_right (by decide) (by omega))),
      Nat.testBit_lt_two_pow (hv.trans_le (Nat.pow_le_pow_right (by decide) (by omega)))]

theorem State.regBytes_bits (s : State) : 8 * s.regBytes ≤ s.par.bits := Nat.mul_div_le _ _

/-! ### ST and LD (R137, R138) -/

/-- A write of admitted bytes is the whole change (R73, R357). -/
theorem onlyBytes_putBytes {s : State} (h : s.Inv) (addr : Nat) (bytes : List Byte) :
    OnlyBytes s (s.next (s.putBytes addr bytes)) addr bytes.length (fun j => bytes.getD j 0#8) := by
  refine ⟨rfl, fun j hj => ?_, fun a ha => ?_, fun _ => rfl⟩
  · rw [State.next_byteAt, State.byteAt_putBytes s _ _ _ h.dm_wf, if_pos (by omega), Nat.add_sub_cancel_left]
  · rw [State.next_byteAt, State.byteAt_putBytes s _ _ _ h.dm_wf, if_neg (by omega)]

theorem OnlyBytes.congr {s t : State} {addr n : Nat} {b b' : Nat → Byte} (h : OnlyBytes s t addr n b)
    (hb : ∀ j, j < n → b j = b' j) : OnlyBytes s t addr n b' := by
  obtain ⟨hstate, hin, hout, hcm⟩ := h
  exact ⟨hstate, fun j hj => (hin j hj).trans (hb j hj), hout, hcm⟩

/-- Settles O17. -/
theorem loadsAndStores : Obligations.LoadsAndStores := by
  intro s h rd rs1 imm addr n hin
  have hadm : s.admits addr n = true := State.admits_iff.mpr hin
  refine ⟨?_, ?_⟩
  · have hst : exec (.st rd rs1 imm) s = .next (s.next (s.putBytes addr (leBytes (s.val rd) n))) :=
      exec_of_body rfl (State.writeMem_of_admits (by rwa [leBytes_length]))
    have honly := onlyBytes_putBytes h addr (leBytes (s.val rd) n)
    rw [leBytes_length] at honly
    exact ⟨_, hst, honly.congr fun j hj => leBytes_getD hj⟩
  · have hld : exec (.ld rd rs1 imm) s = .next (s.next (s.setRaw rd (leNat (s.bytesAt addr n)))) :=
      exec_of_body rfl (by rw [show s.regBytes = n from rfl, State.readMem_of_admits hadm]; rfl)
    have hlt : leNat (s.bytesAt addr n) < 2 ^ s.par.bits := by
      refine (leNat_lt _).trans_le (Nat.pow_le_pow_right (by decide) ?_)
      rw [State.bytesAt_length]
      exact s.regBytes_bits
    refine ⟨_, _, hld, rawResult_setRaw hlt, hlt, fun j hj => ?_⟩
    rw [leNat_byte, State.bytesAt_getD hj]

end Sys2Proof.Machine
end

section
/-! What the modular commands give, and the reduction algorithms that the spec writes down for the record
(42_modular.md). -/

namespace Sys2Proof.Machine

/-! ### The constants of a context (R180 to R182) -/

/-- The limb length of a number with `n` bits: the least count of `w`-bit limbs that holds it (R31). -/
theorem ceilDiv_bounds {w n : Nat} (hw : 0 < w) (hn : 0 < n) : n ≤ w * ceilDiv n w ∧ w * (ceilDiv n w - 1) ≤ n - 1 := by
  have hk : ceilDiv n w = (n - 1) / w + 1 := by
    rw [ceilDiv, show n + w - 1 = n - 1 + w by omega, Nat.add_div_right _ hw]
  rw [hk, Nat.add_sub_cancel]
  have h1 := Nat.div_add_mod (n - 1) w
  have h2 := Nat.mod_lt (n - 1) hw
  rw [Nat.mul_add, Nat.mul_one]
  omega

/-- `n0inv * m = -1` modulo `2^W`, for an odd modulus (R181). -/
theorem montN0inv_spec {w m : Nat} (hw : 0 < w) (hodd : m % 2 = 1) :
    montN0inv w m < 2 ^ w ∧ montN0inv w m * m % 2 ^ w = 2 ^ w - 1 := by
  have hb : 1 < 2 ^ w := Nat.one_lt_two_pow hw.ne'
  have hlow : m % 2 ^ w < 2 ^ w := Nat.mod_lt _ (by omega)
  have hcop : Nat.Coprime (2 ^ w - m % 2 ^ w) (2 ^ w) := by
    have h2 : Nat.Coprime m (2 ^ w) := (Nat.coprime_two_right.mpr (Nat.odd_iff.mpr hodd)).pow_right w
    rw [Nat.coprime_self_sub_left hlow.le, Nat.Coprime, ← Nat.gcd_rec]
    exact h2.symm
  obtain ⟨v, hv⟩ := modInv_of_coprime hb hcop
  obtain ⟨hlt, hone⟩ := (modInv_eq_some hb).mp hv
  have hval : montN0inv w m = v := by rw [montN0inv, hv, Option.getD_some]
  rw [hval]
  refine ⟨hlt, ?_⟩
  have hsum : (v * m + 1) % 2 ^ w = 0 := by
    have hzero : (v * m + v * (2 ^ w - m % 2 ^ w)) % 2 ^ w = 0 := by
      rw [← Nat.mul_add, ← Nat.mul_mod_mod, ← Nat.mod_add_mod, Nat.add_sub_cancel' hlow.le, Nat.mod_self, Nat.mul_zero,
        Nat.zero_mod]
    rwa [← Nat.add_mod_mod, hone] at hzero
  have hrem := Nat.mod_lt (v * m) (show 0 < 2 ^ w by omega)
  rw [← Nat.mod_add_mod] at hsum
  by_contra hne
  rw [Nat.mod_eq_of_lt (by omega)] at hsum
  omega

@[simp] theorem Strategy.mont_beq_barr : (Strategy.mont == Strategy.barr) = false := rfl
@[simp] theorem Strategy.barr_beq_mont : (Strategy.barr == Strategy.mont) = false := rfl

/-- The moduli that CTXDEF refuses (R180). -/
abbrev CtxdefRefuses (strat : Strategy) (m : Nat) : Prop :=
  (strat = .mont ∧ (m % 2 = 0 ∨ m ≤ 1)) ∨ (strat = .barr ∧ m = 0)

theorem ctxdef_refused_faults {s : State} {c : CtxIx} {rs1 : RegIx} {strat : Strategy} (hnone : s.ctxAt c = none)
    (h : CtxdefRefuses strat (s.val rs1)) : Faults (.ctxdef c rs1 strat) s .invalidParameter := by
  refine faults_of_body rfl ?_
  obtain ⟨rfl, h⟩ | ⟨rfl, h⟩ := h
  · have hbad : (decide (s.val rs1 % 2 = 0) || decide (s.val rs1 ≤ 1)) = true := by simpa using h
    simp [hnone, hbad]
  · simp [hnone, h]

theorem exec_ctxdef {s : State} {c : CtxIx} {rs1 : RegIx} {strat : Strategy} (hnone : s.ctxAt c = none)
    (h : ¬ CtxdefRefuses strat (s.val rs1)) :
    exec (.ctxdef c rs1 strat) s = .next (s.next (s.setCtx c (makeCtx s.par strat (s.val rs1)))) := by
  refine exec_of_body rfl ?_
  cases strat with
  | mont =>
    obtain ⟨hodd, hone⟩ : s.val rs1 % 2 ≠ 0 ∧ 1 < s.val rs1 := by simp [CtxdefRefuses] at h; omega
    simp [hnone, hodd, Nat.not_le.mpr hone]
  | barr =>
    have hne : s.val rs1 ≠ 0 := by simpa [CtxdefRefuses] using h
    simp [hnone, hne]

/-- Settles O23: the lengths are those of `bitLength` and `ceilDiv`, and the constants solve their equations. -/
theorem defineContext : Obligations.DefineContext := by
  intro s h c rs1 strat
  refine ⟨fun hsome => faults_of_body rfl ?_, ctxdef_refused_faults, fun hnone hok => ?_⟩
  · obtain ⟨e, he⟩ := Option.ne_none_iff_exists'.mp hsome
    simp [he]
  · have hm : s.val rs1 ≠ 0 := by
      rintro h0
      cases strat <;> simp [h0] at hok
    have hpos := bitLength_pos hm
    obtain ⟨hk, hk1⟩ := ceilDiv_bounds (Params.limbBits_pos h.par) hpos
    have htop := two_pow_pred_bitLength_le hpos.ne'
    have hbits := lt_two_pow_bitLength (s.val rs1)
    refine ⟨_, makeCtx s.par strat (s.val rs1), exec_ctxdef hnone hok, rfl, ?_, fun d hd => ?_, rfl, htop, hbits,
      (Nat.pow_le_pow_right (by decide) hk1).trans htop, hbits.trans_le (Nat.pow_le_pow_right (by decide) hk), ?_, ?_⟩
    · exact (State.ctxAt_setCtx s c c _).trans (if_pos rfl)
    · exact (State.ctxAt_setCtx s c d _).trans (if_neg hd)
    · rintro rfl
      obtain ⟨hlt, hinv⟩ := montN0inv_spec (w := s.par.limbBits) (m := s.val rs1) (Params.limbBits_pos h.par)
        (by simp at hok; omega)
      exact ⟨_, _, rfl, hlt, hinv, rfl⟩
    · rintro rfl
      exact ⟨_, rfl, Nat.div_mul_le_self _ _, (Nat.lt_mul_div_succ _ (Nat.pos_of_ne_zero hm)).trans_eq (Nat.mul_comm _ _)⟩

/-! ### REDC and BRED (R183, R184) -/

theorem Ctx.strat_eq_mont {e : Ctx} : e.strat = .mont ↔ e.isMont = true := by
  unfold Ctx.strat
  cases e.isMont <;> simp

theorem Ctx.strat_eq_barr {e : Ctx} : e.strat = .barr ↔ e.isMont = false := by
  unfold Ctx.strat
  cases e.isMont <;> simp

/-- A Montgomery context in use has an odd modulus above 1 (R180). -/
theorem Ctx.admitted_mont {e : Ctx} (h : e.admitted) (hm : e.strat = .mont) : e.m % 2 = 1 ∧ 1 < e.m := by
  unfold Ctx.admitted at h
  split at h
  · exact h
  · next mu hred => simp [Ctx.strat, Ctx.isMont, hred] at hm

/-- Settles O24. -/
theorem reductions : Obligations.Reductions := by
  intro s h rd c
  refine ⟨fun hnone => ⟨?_, ?_⟩, fun e he => ?_⟩
  · exact faults_of_body rfl (by simp [State.needCtx, hnone])
  · exact faults_of_body rfl (by simp [State.needCtx, hnone])
  have hctx : s.needCtx c = .ok e := State.needCtx_eq_ok.mpr he
  have hadm := Ctx.sound_admitted (h.ctx_sound he)
  have hpos := Ctx.admitted_pos hadm
  have hbits := Ctx.sound_lt (h.ctx_sound he)
  refine ⟨fun hs => ?_, fun hs => ?_, fun hs hacc => ?_, fun hs hacc => ?_, fun hs hacc => ?_, fun hs hacc => ?_⟩
  · exact faults_of_body rfl (by simp [hctx, Ctx.strat_eq_barr.mp hs])
  · exact faults_of_body rfl (by simp [hctx, Ctx.strat_eq_mont.mp hs])
  · exact faults_of_body rfl (by simp [hctx, Ctx.strat_eq_mont.mp hs, hacc])
  · exact faults_of_body rfl (by simp [hctx, Ctx.strat_eq_barr.mp hs, Ctx.barrettAdmits, Nat.not_lt.mpr hacc])
  · obtain ⟨hodd, hone⟩ := Ctx.admitted_mont hadm hs
    have hlt := montReduce_lt hpos s.par.bits s.acc
    exact ⟨_, _, exec_of_body rfl (by simp [hctx, Ctx.strat_eq_mont.mp hs, Nat.not_le.mpr hacc]),
      rawResult_setRaw (hlt.trans hbits), hlt, montReduce_spec hodd hone _ _⟩
  · exact ⟨_, exec_of_body rfl (by simp [hctx, Ctx.strat_eq_barr.mp hs, Ctx.barrettAdmits, hacc]),
      rawResult_setRaw ((Nat.mod_lt _ hpos).trans hbits)⟩

/-! ### The word-serial algorithm (R191) -/

section
variable {w m n0inv : Nat} (hw : n0inv * m % 2 ^ w = 2 ^ w - 1)
include hw

/-- The multiple of m that a step adds clears the low limb. -/
theorem redcStep_exact (t : Nat) : (t + t % 2 ^ w * n0inv % 2 ^ w * m) % 2 ^ w = 0 := by
  have hb : 0 < 2 ^ w := Nat.two_pow_pos w
  calc (t + t % 2 ^ w * n0inv % 2 ^ w * m) % 2 ^ w
      = (t + t * (n0inv * m % 2 ^ w)) % 2 ^ w := by
        rw [← Nat.add_mod_mod, Nat.mod_mul_mod, Nat.mul_assoc, Nat.mod_mul_mod, ← Nat.mul_mod_mod, Nat.add_mod_mod]
    _ = (t * 2 ^ w) % 2 ^ w := by rw [hw, show t + t * (2 ^ w - 1) = t * (1 + (2 ^ w - 1)) by ring, Nat.add_sub_cancel' hb]
    _ = 0 := Nat.mul_mod_left _ _

theorem redcStep_mul (t : Nat) : redcStep w m n0inv t * 2 ^ w = t + t % 2 ^ w * n0inv % 2 ^ w * m :=
  Nat.div_mul_cancel (Nat.dvd_of_mod_eq_zero (redcStep_exact hw t))

/-- `n` steps divide by `2^(n*w)` modulo m, and bring a value below `m * 2^(n*w) + m` under 2m. -/
theorem redcSteps_spec (n t : Nat) :
    redcSteps w m n0inv n t * 2 ^ (n * w) % m = t % m ∧
    (t < m * 2 ^ (n * w) + m → redcSteps w m n0inv n t < 2 * m) := by
  induction n generalizing t with
  | zero => exact ⟨by simp [redcSteps], fun h => by simp at h; simp [redcSteps]; omega⟩
  | succ n ih =>
    obtain ⟨hmod, hlt⟩ := ih (redcStep w m n0inv t)
    have hstep := redcStep_mul hw t
    have hpow : 2 ^ ((n + 1) * w) = 2 ^ (n * w) * 2 ^ w := by rw [← pow_add]; ring_nf
    simp only [redcSteps, hpow]
    constructor
    · rw [← Nat.mul_assoc, ← Nat.mod_mul_mod, hmod, Nat.mod_mul_mod, hstep, Nat.add_mul_mod_self_right]
    · intro ht
      refine hlt ?_
      have hq : t % 2 ^ w * n0inv % 2 ^ w * m + m ≤ 2 ^ w * m := by
        rw [← Nat.succ_mul]
        exact Nat.mul_le_mul_right m (Nat.mod_lt _ (Nat.two_pow_pos w))
      refine Nat.lt_of_mul_lt_mul_right (a := 2 ^ w) ?_
      calc redcStep w m n0inv t * 2 ^ w
          = t + t % 2 ^ w * n0inv % 2 ^ w * m := hstep
        _ < m * (2 ^ (n * w) * 2 ^ w) + 2 ^ w * m := by omega
        _ = (m * 2 ^ (n * w) + m) * 2 ^ w := by ring

end

/-- Settles O25: a step is an exact division (`redcStep_exact`), and `n` of them end below 2m (`redcSteps_spec`). -/
theorem wordSerialReduction : Obligations.WordSerialReduction := by
  intro w n m n0inv acc _ hodd hone _ _ hinv hacc
  obtain ⟨hmod, hlt⟩ := redcSteps_spec hinv n acc
  have h2m := hlt (by omega)
  have hunit : redcUnit w n m n0inv acc = redcSteps w m n0inv n acc % m := by
    simp only [redcUnit]
    split
    · next hle => rw [Nat.mod_eq_sub_mod hle, Nat.mod_eq_of_lt (by omega)]
    · next hle => rw [Nat.mod_eq_of_lt (by omega)]
  have hred : redcUnit w n m n0inv acc < m := hunit ▸ Nat.mod_lt _ (by omega)
  have hval : redcUnit w n m n0inv acc * 2 ^ (n * w) % m = acc % m := by rw [hunit, Nat.mod_mul_mod, hmod]
  refine ⟨redcStep_exact hinv, h2m, hred, hval, ?_⟩
  exact eq_of_mul_radix hodd hred (montReduce_lt (by omega) _ _) (hval.trans (montReduce_spec hodd hone _ _).symm)

/-! ### The Barrett algorithm (R192) -/

/-- The estimate of the quotient: with `M = B * C` and `x < M`, the quotient of `x / B * (M / m)` by C is at most
`x / m`, and at most 2 below it when `B ≤ m`. -/
theorem barrett_estimate {x m B C : Nat} (hB : 0 < B) (hC : 0 < C) (hBm : B ≤ m) (hx : x < B * C) :
    x / B * (B * C / m) / C ≤ x / m ∧ x / m ≤ x / B * (B * C / m) / C + 2 := by
  have hm : 0 < m := hB.trans_le hBm
  set A := x / B with hA
  set mu := B * C / m with hmu
  set q := A * mu / C with hq
  have h1 : A * B ≤ x := Nat.div_mul_le_self _ _
  have h1' : x < (A + 1) * B := (Nat.lt_mul_div_succ x hB).trans_eq (Nat.mul_comm _ _)
  have h2 : mu * m ≤ B * C := Nat.div_mul_le_self _ _
  have h2' : B * C < (mu + 1) * m := (Nat.lt_mul_div_succ _ hm).trans_eq (Nat.mul_comm _ _)
  have h3 : q * C ≤ A * mu := Nat.div_mul_le_self _ _
  have h3' : A * mu < (q + 1) * C := (Nat.lt_mul_div_succ _ hC).trans_eq (Nat.mul_comm _ _)
  constructor
  · rw [Nat.le_div_iff_mul_le hm]
    refine Nat.le_of_mul_le_mul_right ?_ (Nat.mul_pos hB hC)
    calc q * m * (B * C) = q * C * (m * B) := by ring
      _ ≤ A * mu * (m * B) := Nat.mul_le_mul_right _ h3
      _ = A * B * (mu * m) := by ring
      _ ≤ x * (B * C) := Nat.mul_le_mul h1 h2
  · refine Nat.le_of_lt_succ ((Nat.div_lt_iff_lt_mul hm).mpr ?_)
    have hr : x ≤ A * B + m := by rw [Nat.add_mul, Nat.one_mul] at h1'; omega
    have hs : B * C ≤ mu * m + m := by rw [Nat.add_mul, Nat.one_mul] at h2'; omega
    refine Nat.lt_of_mul_lt_mul_right (a := B * C) ?_
    calc x * (B * C) ≤ (A * B + m) * (B * C) := Nat.mul_le_mul_right _ hr
      _ = A * B * (B * C) + m * (B * C) := by ring
      _ ≤ A * B * (mu * m + m) + m * (B * C) := Nat.add_le_add_right (Nat.mul_le_mul_left _ hs) _
      _ = A * mu * (m * B) + A * B * m + m * (B * C) := by ring
      _ < (q + 1) * C * (m * B) + B * C * m + m * (B * C) := by
        have hlt := Nat.mul_lt_mul_of_pos_right h3' (Nat.mul_pos hm hB)
        have hle := Nat.mul_le_mul_right m (h1.trans hx.le)
        omega
      _ = (q + 2).succ * m * (B * C) := by rw [Nat.succ_eq_add_one]; ring

theorem barrettCorrect_eq {m : Nat} (n r : Nat) (h : r < (n + 1) * m) : barrettCorrect m n r = r % m := by
  induction n generalizing r with
  | zero => rw [barrettCorrect, Nat.mod_eq_of_lt (by omega)]
  | succ n ih =>
    rw [barrettCorrect]
    split
    · next hle =>
      rw [ih (r - m) (by rw [Nat.add_mul] at h; omega), ← Nat.mod_eq_sub_mod hle]
    · next hlt => rw [Nat.mod_eq_of_lt (by omega)]

/-- Settles O26, by the estimate with `B = 2^(w*(k-1))` and `C = 2^(w*(k+1))`. -/
theorem barrettReduction : Obligations.BarrettReduction := by
  intro w k m acc _ hk hlow _ hacc mu q
  have hsplit : 2 ^ (2 * k * w) = 2 ^ (w * (k - 1)) * 2 ^ (w * (k + 1)) := by
    rw [← pow_add, ← Nat.mul_add, show k - 1 + (k + 1) = 2 * k by omega, Nat.mul_comm w]
  have hm : 0 < m := (Nat.two_pow_pos _).trans_le hlow
  have hest : q ≤ acc / m ∧ acc / m ≤ q + 2 := by
    simp only [q, mu, hsplit]
    exact barrett_estimate (Nat.two_pow_pos _) (Nat.two_pow_pos _) hlow (hsplit ▸ hacc)
  obtain ⟨hle, hge⟩ := hest
  have hqm : q * m ≤ acc := (Nat.mul_le_mul_right m hle).trans (Nat.div_mul_le_self _ _)
  have hrem : acc - q * m < 3 * m := by
    have h1 := Nat.lt_mul_div_succ acc hm
    have h2 := Nat.mul_le_mul_left m (Nat.add_le_add_right hge 1)
    have h3 : m * (q + 2 + 1) = q * m + 3 * m := by ring
    omega
  refine ⟨hle, hge, hrem, ?_⟩
  calc barrettUnit w k m mu acc = (acc - q * m) % m := barrettCorrect_eq 2 _ hrem
    _ = acc % m := by rw [Nat.mul_comm, Nat.sub_mul_mod (by rwa [Nat.mul_comm])]

/-! ### MODADD, MODSUB, MODMUL, MODINV and MODPOW (R185 to R188, R190) -/

@[simp] theorem modInv_zero (m : Nat) : modInv m 0 = none := by simp [modInv]

/-- Zero and a value with a common factor have no inverse (R188). -/
theorem modInv_none {m a : Nat} (ha : a < m) (h : a = 0 ∨ Nat.gcd a m ≠ 1) : modInv m a = none := by
  by_cases h0 : a = 0
  · rw [h0, modInv_zero]
  · exact (modInv_eq_none (by omega)).mpr (h.resolve_left h0)

/-- Every other reduced value has one (R188). -/
theorem modInv_some {m a : Nat} (ha : a < m) (h0 : a ≠ 0) (h : Nat.gcd a m = 1) :
    ∃ v, modInv m a = some v ∧ v < m ∧ v * a % m = 1 := by
  have hm : 1 < m := by omega
  obtain ⟨v, hv⟩ := modInv_of_coprime hm h
  exact ⟨v, hv, (modInv_eq_some hm).mp hv⟩

theorem subMod_add_eq {m a : Nat} (ha : a < m) (b : Nat) : (subMod m a b + b) % m = a := by
  rw [subMod_add (by omega), Nat.mod_eq_of_lt ha]

/-- Settles O27. -/
theorem modularArithmetic : Obligations.ModularArithmetic := by
  intro s h rd rs1 rs2 c
  refine ⟨fun hnone => ?_, fun e he => ?_⟩
  · have hctx : s.needCtx c = .error (.kind .invalidParameter) := by simp [State.needCtx, hnone]
    simp only [List.forall_mem_cons, List.not_mem_nil, IsEmpty.forall_iff, implies_true, and_true]
    exact ⟨faults_of_body rfl (by rw [hctx]; rfl), faults_of_body rfl (by rw [hctx]; rfl),
      faults_of_body rfl (by rw [hctx]; rfl), faults_of_body rfl (by rw [hctx]; rfl),
      faults_of_body rfl (by rw [hctx]; rfl)⟩
  have hctx : s.needCtx c = .ok e := State.needCtx_eq_ok.mpr he
  have hpos := Ctx.admitted_pos (Ctx.sound_admitted (h.ctx_sound he))
  have hbits := Ctx.sound_lt (h.ctx_sound he)
  refine ⟨fun hbad => ?_, fun ha => ⟨?_, ?_⟩, fun ha hb => ⟨?_, ?_, ?_⟩, fun ha => ?_, fun ha hbad => ?_,
    fun ha h0 hcop => ?_⟩
  · have hcheck : (decide (e.m ≤ s.val rs1) || decide (e.m ≤ s.val rs2)) = true := by simpa using hbad
    simp only [List.forall_mem_cons, List.not_mem_nil, IsEmpty.forall_iff, implies_true, and_true]
    exact ⟨faults_of_body rfl (by simp [hctx, hcheck]), faults_of_body rfl (by simp [hctx, hcheck]),
      faults_of_body rfl (by simp [hctx, hcheck])⟩
  · exact faults_of_body rfl (by simp [hctx, ha])
  · exact faults_of_body rfl (by simp [hctx, ha])
  · exact ⟨_, exec_of_body rfl (by simp [hctx, Nat.not_le.mpr ha, Nat.not_le.mpr hb]),
      rawResult_setRaw ((Nat.mod_lt _ hpos).trans hbits)⟩
  · have hlt := subMod_lt hpos (s.val rs1) (s.val rs2)
    exact ⟨_, _, exec_of_body rfl (by simp [hctx, Nat.not_le.mpr ha, Nat.not_le.mpr hb]),
      rawResult_setRaw (hlt.trans hbits), hlt, subMod_add_eq ha _⟩
  · exact ⟨_, exec_of_body rfl (by simp [hctx, Nat.not_le.mpr ha, Nat.not_le.mpr hb]),
      rawResult_setRaw ((Nat.mod_lt _ hpos).trans hbits)⟩
  · exact ⟨_, exec_of_body rfl (by simp [hctx, Nat.not_le.mpr ha, modPow_eq]),
      rawResult_setRaw ((Nat.mod_lt _ hpos).trans hbits)⟩
  · exact faults_of_body rfl (by simp [hctx, Nat.not_le.mpr ha, modInv_none ha hbad])
  · obtain ⟨v, hv, hlt, hone⟩ := modInv_some ha h0 hcop
    exact ⟨_, v, exec_of_body rfl (by simp [hctx, Nat.not_le.mpr ha, hv]), rawResult_setRaw (hlt.trans hbits), hlt, hone⟩

/-! ### JACOBI (R189, R194) -/

/-- The loop gives the sign it is called with times the symbol of its two numbers. -/
theorem jacobiLoop_eq (k a n : Nat) (t : Int) (ha : a < k) (hn : n % 2 = 1) :
    jacobiLoop k a n t = t * jacobiSym a n := by
  induction k generalizing a n t with
  | zero => omega
  | succ k ih =>
    rw [jacobiLoop]
    by_cases h0 : a = 0
    · subst h0
      by_cases h1 : n = 1
      · simp [h1]
      · simp [h1, jacobiSym.zero_left (show 1 < n by omega)]
    rw [if_neg h0]
    by_cases heven : a % 2 = 0
    · have hsym := jacobiSym.even_odd (a := (a : ℤ)) (b := n) (by omega) hn
      rw [if_pos heven, ih (a / 2) n _ (by omega) hn, ← hsym]
      push_cast
      split_ifs <;> ring
    · have hodd : a % 2 = 1 := by omega
      have hsym := jacobiSym.quadratic_reciprocity_if hodd hn
      have hmod := Nat.mod_lt n (Nat.pos_of_ne_zero h0)
      rw [if_neg heven, ih (n % a) a _ (by omega) hodd, ← hsym, Int.natCast_mod, ← jacobiSym.mod_left]
      split_ifs <;> ring

theorem jacobi_eq_jacobiSym (a n : Nat) (hn : n % 2 = 1) : jacobi a n = jacobiSym a n := by
  rw [jacobi, jacobiLoop_eq _ _ _ _ (Nat.lt_succ_self _) hn, one_mul, Int.natCast_mod, ← jacobiSym.mod_left]

/-- The register value of a symbol: 1, 0, or `2^BITS - 1` for -1 (R189). -/
theorem jacobiValue_eq {bits : Nat} (hb : 0 < bits) {j : Int} (hj : j = 0 ∨ j = 1 ∨ j = -1) :
    jacobiValue bits j = if j = 1 then 1 else if j = 0 then 0 else 2 ^ bits - 1 := by
  have h1 : 1 < 2 ^ bits := Nat.one_lt_two_pow hb.ne'
  obtain rfl | rfl | rfl := hj
  · simp [jacobiValue]
  · rw [if_pos rfl, jacobiValue, Int.emod_eq_of_lt (by decide) (by omega)]
    rfl
  · rw [if_neg (by decide), if_neg (by decide), jacobiValue, ← Int.add_emod_right, Int.emod_eq_of_lt (by omega) (by omega)]
    omega

/-- Settles O28. -/
theorem jacobiCommand : Obligations.JacobiCommand := by
  intro s h rd rs1 rs2 n j
  refine ⟨fun hbad => faults_of_body rfl ?_, fun hodd hone => ?_⟩
  · have hcheck : (decide (s.val rs2 % 2 = 0) || decide (s.val rs2 ≤ 1)) = true := by simpa using hbad
    simp [hcheck]
  · have hj : jacobi (s.val rs1) (s.val rs2) = j := jacobi_eq_jacobiSym _ _ hodd
    have hvalue := jacobiValue_eq (show 0 < s.par.bits from (Params.bits_ge h.par).trans_lt' (by decide))
      (jacobiSym.trichotomy (s.val rs1 : ℤ) n)
    have hlt : jacobiValue s.par.bits j < 2 ^ s.par.bits := by
      have h1 : 1 < 2 ^ s.par.bits := Nat.one_lt_two_pow (by have := Params.bits_ge h.par; omega)
      rw [hvalue]
      split_ifs <;> omega
    have hexec : exec (.jacobi rd rs1 rs2) s =
        .next (s.next ((s.setRaw rd (jacobiValue s.par.bits j)).setZL (jacobiZero j) (jacobiMinus j))) := by
      refine exec_of_body rfl ?_
      rw [hj]
      simp [show s.val rs2 % 2 = 1 from hodd, Nat.not_le.mpr (show 1 < s.val rs2 from hone)]
    refine ⟨_, hexec, ?_⟩
    rw [← hvalue]
    exact rawResult_setRaw (s := { s with z := jacobiZero j, l := jacobiMinus j }) hlt

end Sys2Proof.Machine
end

section
/-! What the prime-field commands give (43_prime_field.md). -/

namespace Sys2Proof.Machine

/-! ### The bytes of a field element (R75, R226, R227) -/

/-- Byte `j` of a number whose bytes stand most significant first (R226). -/
theorem beNat_byte (bs : List Byte) {j : Nat} (h : j < bs.length) :
    beNat bs / 2 ^ (8 * (bs.length - 1 - j)) % 256 = (bs.getD j 0#8).toNat := by
  have hlt : bs.length - 1 - j < bs.length := by omega
  have hj : bs.length - 1 - (bs.length - 1 - j) = j := by omega
  rw [beNat, leNat_byte]
  simp [List.getD, hlt, List.getElem_reverse, hj, h]

theorem beNat_lt (bs : List Byte) : beNat bs < 2 ^ (8 * bs.length) := by
  simpa [beNat] using leNat_lt bs.reverse

/-- A number with the bytes of a range of DM is the number that the range spells (R227). -/
theorem beNat_bytesAt_eq {s : State} {addr n a : Nat} (ha : a < 2 ^ (8 * n))
    (h : ∀ j, j < n → a / 2 ^ (8 * (n - 1 - j)) % 256 = (s.byteAt (addr + j)).toNat) : beNat (s.bytesAt addr n) = a := by
  have hlt : beNat (s.bytesAt addr n) < 2 ^ (8 * n) := by simpa using beNat_lt (s.bytesAt addr n)
  refine eq_of_bytes hlt ha fun j hj => ?_
  have hbyte := beNat_byte (s.bytesAt addr n) (j := n - 1 - j) (by rw [State.bytesAt_length]; omega)
  have hspec := h (n - 1 - j) (by omega)
  have hback : n - 1 - (n - 1 - j) = j := by omega
  rw [State.bytesAt_length, hback, State.bytesAt_getD (by omega)] at hbyte
  rw [hback] at hspec
  rw [hbyte, hspec]

/-- A written range reads back as the bytes written. -/
theorem State.bytesAt_putBytes {s : State} (h : s.Inv) (addr : Nat) (bytes : List Byte) :
    (s.putBytes addr bytes).bytesAt addr bytes.length = bytes := by
  refine List.ext_getElem (State.bytesAt_length _ _ _) fun j h1 h2 => ?_
  simp only [State.bytesAt, List.getElem_map, List.getElem_range]
  rw [State.byteAt_putBytes _ _ _ _ h.dm_wf, if_pos (by omega), Nat.add_sub_cancel_left]
  simp [List.getD, h2]

/-- An element of a context fits the bytes of its encoding (R75). -/
theorem Ctx.lt_encodedBytes {par : Params} {e : Ctx} (h : e.sound par = true) {a : Nat} (ha : a < e.m) :
    a < 2 ^ (8 * e.encodedBytes) := by
  have hmbits : e.mbits = bitLength e.m := by
    simp only [Ctx.sound, Bool.and_eq_true, decide_eq_true_eq] at h
    rw [h.2]
    rfl
  have hlen : bitLength e.m ≤ 8 * e.encodedBytes := by
    rw [Ctx.encodedBytes, hmbits]
    exact (ceilDiv_bounds (by decide) (bitLength_pos (by omega))).1
  exact ha.trans ((bitLength_le_iff _ _).mp hlen)

/-! ### FZERO, FONE, FFROMI, FTOI, FENC and FDEC -/

section
variable {s : State} {c : CtxIx} {e : Ctx}

theorem State.needFp_of_tag {r : RegIx} (ht : s.tag r = .fp c) (he : s.ctxAt c = some e) :
    s.needFp r = .ok (primeView c e) := State.needFp_eq_ok.mpr ⟨c, e, ht, he, rfl⟩

theorem State.needFp_of_raw {r : RegIx} (ht : s.tag r = .raw) :
    s.needFp r = .error (.kind .incompatibleContext) := by simp [State.needFp, ht]

theorem State.fpVal_primeView (r : RegIx) : s.fpVal (primeView c e) r = e.logical s.par.bits (s.val r) := rfl

/-- What is known of a context in use. -/
theorem State.Inv.ctx_use (h : s.Inv) (he : s.ctxAt c = some e) : e.admitted ∧ 0 < e.m ∧ e.m < 2 ^ s.par.bits :=
  have hsound := h.ctx_sound he
  have hadm := Ctx.sound_admitted hsound
  ⟨hadm, Ctx.admitted_pos hadm, Ctx.sound_lt hsound⟩

/-- The logical value of a register tagged for the context is below its modulus (R25). -/
theorem State.Inv.logical_lt (h : s.Inv) (he : s.ctxAt c = some e) {r : RegIx} (ht : s.tag r = .fp c) :
    e.logical s.par.bits (s.val r) < e.m := by
  obtain ⟨e', he', hlt⟩ := h.tagged_lt ht
  rw [he] at he'
  cases he'
  exact Ctx.logical_lt (h.ctx_use he).2.1 hlt

theorem exec_fdec {rd rs1 : RegIx} {a : Nat} (hadm : e.admitted) (hbits : e.m < 2 ^ s.par.bits)
    (he : s.ctxAt c = some e) (hin : s.InsideDm (s.val rs1) e.encodedBytes)
    (hval : beNat (s.bytesAt (s.val rs1) e.encodedBytes) = a) :
    (e.m ≤ a → Faults (.fdec rd rs1 c) s .outOfRange) ∧
    (a < e.m → ∃ t, exec (.fdec rd rs1 c) s = .next t ∧ FieldResult s t c e rd a) := by
  have hctx := State.needCtx_eq_ok.mpr he
  have hread := State.readMem_of_admits (State.admits_iff.mpr hin)
  refine ⟨fun hge => ?_, fun hlt => ?_⟩
  · exact faults_of_body rfl (by simp [hctx, hread, hval, hge])
  · exact ⟨_, exec_of_body rfl (by simp [hctx, hread, hval, Nat.not_le.mpr hlt]), fieldResult_setFp hadm hbits hlt⟩

/-- FENC, and FDEC of what it wrote. -/
theorem exec_fenc (h : s.Inv) {rd rs1 : RegIx} (he : s.ctxAt c = some e) (ht : s.tag rd = .fp c)
    (hin : s.InsideDm (s.val rs1) e.encodedBytes) :
    ∃ t, exec (.fenc rd rs1) s = .next t ∧
      OnlyBytes s t (s.val rs1) e.encodedBytes
        (fun j => BitVec.ofNat 8 (e.logical s.par.bits (s.val rd) / 2 ^ (8 * (e.encodedBytes - 1 - j)))) ∧
      ∀ rd', ∃ u, exec (.fdec rd' rs1 c) t = .next u ∧ FieldResult t u c e rd' (e.logical s.par.bits (s.val rd)) := by
  obtain ⟨hadm, -, hbits⟩ := h.ctx_use he
  have hlt := h.logical_lt he ht
  set a := e.logical s.par.bits (s.val rd) with ha
  set bytes := beBytes a e.encodedBytes with hbytes
  have hlen : bytes.length = e.encodedBytes := beBytes_length _ _
  have hwrite := State.writeMem_of_admits (s := s) (a := s.val rs1) (bs := bytes)
    (by rw [hlen]; exact State.admits_iff.mpr hin)
  refine ⟨s.next (s.putBytes (s.val rs1) bytes), exec_of_body rfl ?_, ?_, fun rd' => ?_⟩
  · rw [State.needFp_of_tag ht he]
    exact hwrite
  · have honly := onlyBytes_putBytes h (s.val rs1) bytes
    rw [hlen] at honly
    exact honly.congr fun j hj => beBytes_getD hj
  · refine (exec_fdec (s := s.next (s.putBytes (s.val rs1) bytes)) hadm hbits he hin ?_).2 hlt
    have hback : (s.putBytes (s.val rs1) bytes).bytesAt (s.val rs1) e.encodedBytes = bytes := by
      rw [← hlen]; exact State.bytesAt_putBytes h _ _
    refine (congrArg beNat hback).trans ?_
    rw [hbytes, beNat_beBytes, Nat.mod_eq_of_lt (Ctx.lt_encodedBytes (h.ctx_sound he) hlt)]

end

/-- Settles O30. -/
theorem elementsEnterAndLeave : Obligations.ElementsEnterAndLeave := by
  intro s h rd rs1 c
  refine ⟨fun hnone => ?_, fun ht => ?_, fun ht => ?_, fun e he => ?_⟩
  · have hctx : s.needCtx c = .error (.kind .invalidParameter) := by simp [State.needCtx, hnone]
    simp only [List.forall_mem_cons, List.not_mem_nil, IsEmpty.forall_iff, implies_true, and_true]
    exact ⟨faults_of_body rfl (by rw [hctx]; rfl), faults_of_body rfl (by rw [hctx]; rfl),
      faults_of_body rfl (by rw [hctx]; rfl), faults_of_body rfl (by rw [hctx]; rfl)⟩
  · exact faults_of_body rfl (by rw [State.needFp_of_raw ht]; rfl)
  · exact faults_of_body rfl (by rw [State.needFp_of_raw ht]; rfl)
  obtain ⟨hadm, hpos, hbits⟩ := h.ctx_use he
  have hctx := State.needCtx_eq_ok.mpr he
  refine ⟨?_, ?_, fun hge => ?_, fun hlt => ?_, fun ht => ?_, fun ht hin => exec_fenc h he ht hin,
    fun hin a ha hb => exec_fdec hadm hbits he hin (beNat_bytesAt_eq ha hb)⟩
  · exact ⟨_, exec_of_body rfl (by rw [hctx]; rfl), fieldResult_setFp hadm hbits hpos⟩
  · exact ⟨_, exec_of_body rfl (by rw [hctx]; rfl), fieldResult_setFp hadm hbits (Nat.mod_lt _ hpos)⟩
  · exact faults_of_body rfl (by simp [hctx, hge])
  · exact ⟨_, exec_of_body rfl (by simp [hctx, Nat.not_le.mpr hlt]), fieldResult_setFp hadm hbits hlt⟩
  · exact ⟨_, exec_of_body rfl (by rw [State.needFp_of_tag ht he]; rfl),
      rawResult_setRaw ((h.logical_lt he ht).trans hbits)⟩

/-! ### Arithmetic on elements (R210, R215 to R219, R221) -/

theorem State.needSameTag_of_ne {s : State} {f : FieldView} {r : RegIx} (h : s.tag r ≠ f.tag) :
    s.needSameTag f r = .error (.kind .incompatibleContext) := by
  have hne : (s.tag r != f.tag) = true := by simpa using h
  rw [State.needSameTag, hne]
  rfl

theorem State.needRaw_of_ne {s : State} {r : RegIx} (h : s.tag r ≠ .raw) :
    s.needRaw r = .error (.kind .incompatibleContext) := if_neg h

/-- Settles O31. -/
theorem elementArithmetic : Obligations.ElementArithmetic := by
  intro s h rd rs1 rs2
  refine ⟨fun ht => ?_, fun c e ht he => ?_⟩
  · have hraw := State.needFp_of_raw ht
    simp only [List.forall_mem_cons, List.not_mem_nil, IsEmpty.forall_iff, implies_true, and_true]
    exact ⟨faults_of_body rfl (by rw [hraw]; rfl), faults_of_body rfl (by rw [hraw]; rfl),
      faults_of_body rfl (by rw [hraw]; rfl), faults_of_body rfl (by rw [hraw]; rfl),
      faults_of_body rfl (by rw [hraw]; rfl), faults_of_body rfl (by rw [hraw]; rfl)⟩
  obtain ⟨hadm, hpos, hbits⟩ := h.ctx_use he
  have hfp := State.needFp_of_tag ht he
  have ha := h.logical_lt he ht
  have hred : ∀ v, v % e.m < e.m := fun v => Nat.mod_lt v hpos
  refine ⟨fun hne => ?_, fun hne => ?_, ?_, ?_, fun hraw => ?_, fun ht2 => ?_⟩
  · have hsame := State.needSameTag_of_ne (f := primeView c e) hne
    simp only [List.forall_mem_cons, List.not_mem_nil, IsEmpty.forall_iff, implies_true, and_true]
    exact ⟨faults_of_body rfl (by simp [hfp, hsame]), faults_of_body rfl (by simp [hfp, hsame]),
      faults_of_body rfl (by simp [hfp, hsame])⟩
  · exact faults_of_body rfl (by simp [hfp, State.needRaw_of_ne hne])
  · have hneg := subMod_add hpos 0 (e.logical s.par.bits (s.val rs1))
    rw [Nat.zero_mod] at hneg
    exact ⟨_, _, exec_of_body rfl (by rw [hfp]; rfl), fieldResult_setFp hadm hbits (subMod_lt hpos 0 _), hneg⟩
  · exact ⟨_, exec_of_body rfl (by rw [hfp]; rfl), fieldResult_setFp hadm hbits (hred _)⟩
  · have hexp := State.needRaw_eq_ok.mpr ⟨hraw, rfl⟩
    rw [← modPow_eq]
    refine ⟨_, exec_of_body rfl (by rw [hfp, Attempt.ok_bind, hexp]; rfl), fieldResult_setFp hadm hbits ?_⟩
    rw [modPow_eq]
    exact hred _
  · have hsame : s.needSameTag (primeView c e) rs2 = .ok () := State.needSameTag_eq_ok.mpr ht2
    refine ⟨?_, ?_, ?_⟩
    · exact ⟨_, exec_of_body rfl (by rw [hfp, Attempt.ok_bind, hsame]; rfl), fieldResult_setFp hadm hbits (hred _)⟩
    · exact ⟨_, _, exec_of_body rfl (by rw [hfp, Attempt.ok_bind, hsame]; rfl),
        fieldResult_setFp hadm hbits (subMod_lt hpos _ _), subMod_add_eq ha _⟩
    · exact ⟨_, exec_of_body rfl (by rw [hfp, Attempt.ok_bind, hsame]; rfl), fieldResult_setFp hadm hbits (hred _)⟩

/-! ### Inverses (R220, R228) -/

/-- A batch has inverses exactly when each of its values has one. -/
theorem invAll_eq_some {m : Nat} {as vs : List Nat} :
    invAll m as = some vs ↔ List.Forall₂ (fun a v => modInv m a = some v) as vs := by
  induction as generalizing vs with
  | nil => cases vs <;> simp [invAll]
  | cons a rest ih =>
    rw [invAll]
    constructor
    · intro h
      split at h
      · next v ws hv hws =>
        cases h
        exact .cons hv (ih.mp hws)
      · cases h
    · intro h
      cases h with
      | cons hv hws => simp only [hv, ih.mpr hws]

theorem invAll_eq_none {m : Nat} {as : List Nat} : invAll m as = none ↔ ∃ a ∈ as, modInv m a = none := by
  induction as with
  | nil => simp [invAll]
  | cons a rest ih =>
    rw [invAll, List.exists_mem_cons_iff, ← ih]
    cases modInv m a <;> cases invAll m rest <;> simp

/-- `FBINV` once its ranges and tags are right. -/
theorem fbinv_body {s : State} {rd rs1 : RegIx} {cnt : Field6} {f : FieldView}
    (hfit : rs1.toNat + (cnt.toNat + 1) ≤ 64 ∧ rd.toNat + (cnt.toNat + 1) ≤ 64) (hf : s.needFp rs1 = .ok f)
    (htag : s.tagged f rs1.toNat (cnt.toNat + 1) = true) :
    exec (.fbinv rd rs1 cnt) s = conclude (.fbinv rd rs1 cnt) s (do
      let vs ← orRaise (invAll f.ctx.m ((List.range (cnt.toNat + 1)).map fun j => s.coordAt f (rs1.toNat + j)))
        .divisionByZero
      .ok (s.setRegs rd.toNat
        ((List.range (cnt.toNat + 1)).map fun j => { val := s.repOf f (vs.getD j 0), tag := f.tag }))) := by
  refine congrArg (conclude _ s) ?_
  rw [show countOf cnt = cnt.toNat + 1 from rfl, runsPast_eq_false.mpr hfit.1, runsPast_eq_false.mpr hfit.2, hf]
  simp [htag]

/-- Settles O32. -/
theorem elementInverses : Obligations.ElementInverses := by
  intro s h rd rs1 cnt n
  refine ⟨fun ht => ?_, fun hbad => ?_, fun hfit htags => ?_, fun c e ht he => ?_⟩
  · exact faults_of_body rfl (by rw [State.needFp_of_raw ht]; rfl)
  · have hpast : (runsPast rs1.toNat (countOf cnt) || runsPast rd.toNat (countOf cnt)) = true := by
      by_contra hfit
      rw [Bool.not_eq_true, Bool.or_eq_false_iff, runsPast_eq_false, runsPast_eq_false] at hfit
      exact hbad hfit
    exact faults_of_body rfl (by rw [hpast]; rfl)
  · refine faults_of_body rfl ?_
    rw [show countOf cnt = n from rfl, runsPast_eq_false.mpr hfit.1, runsPast_eq_false.mpr hfit.2]
    cases htag : s.tag rs1 with
    | raw => simp [State.needFp_of_raw htag]
    | fp c =>
      obtain ⟨e, he, -⟩ := h.tagged_lt htag
      obtain hraw | ⟨j, hj, hne⟩ := htags
      · simp [hraw] at htag
      · have hbad : s.tagged (primeView c e) rs1.toNat n = false := by
          rw [Bool.eq_false_iff, ne_eq, State.tagged_iff]
          exact fun hall => hne ((hall j hj).trans htag.symm)
        simp [State.needFp_of_tag htag he, hbad]
  obtain ⟨hadm, hpos, hbits⟩ := h.ctx_use he
  have hfp := State.needFp_of_tag ht he
  have ha0 : e.logical s.par.bits (s.val rs1) < e.m := h.logical_lt he ht
  refine ⟨fun hbad => ?_, fun h0 hcop => ?_, fun hfit htags => ?_⟩
  · exact faults_of_body rfl (by
      rw [hfp, Attempt.ok_bind, State.fpVal_primeView, show (primeView c e).ctx.m = e.m from rfl, modInv_none ha0 hbad]
      rfl)
  · obtain ⟨v, hv, hlt, hone⟩ := modInv_some ha0 h0 hcop
    refine ⟨_, v, exec_of_body (t := s.setFp (primeView c e) rd v) rfl ?_, fieldResult_setFp hadm hbits hlt, hone⟩
    rw [hfp, Attempt.ok_bind, State.fpVal_primeView, show (primeView c e).ctx.m = e.m from rfl, hv]
    rfl
  · have htag : s.tagged (primeView c e) rs1.toNat n = true := State.tagged_iff.mpr htags
    have hbody := fbinv_body hfit hfp htag
    have hlt : ∀ j, j < n → s.coordAt (primeView c e) (rs1.toNat + j) < e.m := fun j hj =>
      State.coordAt_lt h.regs (State.fieldOf_root (State.fieldOf_prime he)) hpos (by omega) (htags j hj)
    refine ⟨fun ⟨j, hj, hbad⟩ => faults_of_body hbody ?_, fun hall => ?_⟩
    · have hnone : invAll e.m ((List.range n).map fun j => s.coordAt (primeView c e) (rs1.toNat + j)) = none :=
        invAll_eq_none.mpr ⟨_, List.mem_map_of_mem (List.mem_range.mpr hj), modInv_none (hlt j hj) hbad⟩
      rw [show (primeView c e).ctx.m = e.m from rfl, hnone]
      rfl
    · obtain ⟨vs, hvs⟩ : ∃ vs, invAll e.m
          ((List.range n).map fun j => s.coordAt (primeView c e) (rs1.toNat + j)) = some vs := by
        refine Option.ne_none_iff_exists'.mp fun hnone => ?_
        obtain ⟨a, ha, hnoinv⟩ := invAll_eq_none.mp hnone
        obtain ⟨j, hj, rfl⟩ := List.mem_map.mp ha
        have hj := List.mem_range.mp hj
        obtain ⟨v, hv, -⟩ := modInv_some (hlt j hj) (hall j hj).1 (hall j hj).2
        rw [hv] at hnoinv
        cases hnoinv
      have hinv : ∀ j, j < n → vs.getD j 0 < e.m ∧ vs.getD j 0 * s.coordAt (primeView c e) (rs1.toNat + j) % e.m = 1 := by
        intro j hj
        have hforall := invAll_eq_some.mp hvs
        have hlen := hforall.length_eq
        simp only [List.length_map, List.length_range] at hlen
        have hget := hforall.get (i := j) (by simpa using hj) (hlen ▸ hj)
        obtain ⟨v, hv, hspec⟩ := modInv_some (hlt j hj) (hall j hj).1 (hall j hj).2
        simp only [List.get_eq_getElem, List.getElem_map, List.getElem_range, hv, Option.some.injEq] at hget
        rw [show vs.getD j 0 = v by simp [List.getD, hlen ▸ hj, hget]]
        exact hspec
      refine ⟨_, exec_of_body hbody (by rw [show (primeView c e).ctx.m = e.m from rfl, hvs]; rfl),
        onlyRegisters_next (regsOnly_setRegs _ _) fun k hk => ?_, fun j hj => ?_⟩
      · rw [State.regAt_setRegs, if_neg (by simp only [List.length_map, List.length_range]; omega)]
      · obtain ⟨hvlt, hone⟩ := hinv j hj
        have hrep : e.rep s.par.bits (vs.getD j 0) < e.m := Ctx.rep_lt hpos _ _
        have hreg : (s.setRegs rd.toNat ((List.range n).map fun j =>
            { val := s.repOf (primeView c e) (vs.getD j 0), tag := (primeView c e).tag })).regAt (rd.toNat + j) =
            { val := e.rep s.par.bits (vs.getD j 0), tag := .fp c } := by
          rw [State.regAt_setRegs, if_pos (by simp only [List.length_map, List.length_range]; omega),
            Nat.add_sub_cancel_left]
          simp only [List.getD, List.getElem?_map, List.getElem?_range hj, Option.map_some, Option.getD_some]
          exact congrArg (Reg.mk · (.fp c)) (Nat.mod_eq_of_lt (hrep.trans hbits))
        rw [State.next_regAt, hreg]
        refine ⟨rfl, hrep, ?_⟩
        rw [Ctx.logical_rep hadm hvlt]
        exact hone

end Sys2Proof.Machine
end

section
/-! Batch inversion by the running product (R229), the least square root (R222), and the algorithm of Tonelli and Shanks
(R223). -/

namespace Sys2Proof.Machine

/-! ### Batch inversion (R229) -/

/-- The product of all values, reduced after every factor: the last of the running products. -/
def totalProduct (m : Nat) (as : List Nat) : Nat := as.foldl (fun p a => p * a % m) 1

theorem totalProduct_snoc (m : Nat) (as : List Nat) (a : Nat) :
    totalProduct m (as ++ [a]) = totalProduct m as * a % m := by simp [totalProduct]

theorem runningProducts_snoc (m p : Nat) (as : List Nat) (a : Nat) :
    runningProducts m p (as ++ [a]) = runningProducts m p as ++ [as.foldl (fun p a => p * a % m) p * a % m] := by
  induction as generalizing p with
  | nil => rfl
  | cons b rest ih => simp [runningProducts, ih]

theorem runningProducts_reverse_snoc (m : Nat) (as : List Nat) (a : Nat) :
    (runningProducts m 1 (as ++ [a])).reverse = totalProduct m (as ++ [a]) :: (runningProducts m 1 as).reverse := by
  rw [runningProducts_snoc, List.reverse_append, totalProduct_snoc]
  rfl

theorem runningProducts_getLastD {m : Nat} {as : List Nat} (h : as ≠ []) (d : Nat) :
    (runningProducts m 1 as).getLastD d = totalProduct m as := by
  induction as using List.reverseRecOn with
  | nil => exact absurd rfl h
  | append_singleton as a => simp [runningProducts_snoc, totalProduct]

/-- The backward sweep from the inverse of the total product gives the inverse of every value. -/
theorem unwindProducts_spec {m : Nat} (hm : 1 < m) {as : List Nat} (hne : as ≠ []) {u : Nat} (hu : u < m)
    (hone : u * totalProduct m as % m = 1) :
    List.Forall₂ (fun a v => modInv m a = some v) as
      (unwindProducts m u as.reverse (runningProducts m 1 as).reverse) := by
  induction as using List.reverseRecOn generalizing u with
  | nil => exact absurd rfl hne
  | append_singleton as a ih =>
    rw [totalProduct_snoc] at hone
    rw [runningProducts_reverse_snoc, List.reverse_append]
    rcases List.eq_nil_or_concat' as with rfl | ⟨init, b, rfl⟩
    · refine .cons ((modInv_eq_some hm).mpr ⟨hu, ?_⟩) .nil
      simpa [totalProduct] using hone
    · have hstep : unwindProducts m u ([a].reverse ++ (init ++ [b]).reverse)
          (totalProduct m (init ++ [b] ++ [a]) :: (runningProducts m 1 (init ++ [b])).reverse) =
          unwindProducts m (u * a % m) (init ++ [b]).reverse (runningProducts m 1 (init ++ [b])).reverse ++
            [u * totalProduct m (init ++ [b]) % m] := by
        rw [runningProducts_reverse_snoc, List.reverse_append]
        rfl
      rw [hstep]
      refine List.rel_append (ih (by simp) (Nat.mod_lt _ (by omega)) ?_)
        (.cons ((modInv_eq_some hm).mpr ⟨Nat.mod_lt _ (by omega), ?_⟩) .nil)
      · rw [← hone, Nat.mod_mul_mod, Nat.mul_mod_mod]
        congr 1
        ring
      · rw [← hone, Nat.mod_mul_mod, Nat.mul_mod_mod]
        congr 1
        ring

theorem coprime_totalProduct {m : Nat} {as : List Nat} (h : ∀ a ∈ as, Nat.Coprime a m) :
    Nat.Coprime (totalProduct m as) m := by
  induction as using List.reverseRecOn with
  | nil => exact Nat.coprime_one_left m
  | append_singleton as a ih =>
    have hprod := Nat.Coprime.mul_left (ih fun b hb => h b (by simp [hb])) (h a (by simp))
    rw [totalProduct_snoc]
    rw [Nat.Coprime, Nat.gcd_comm] at hprod
    rwa [Nat.Coprime, ← Nat.gcd_rec]

/-- Settles O33. -/
theorem batchInversion : Obligations.BatchInversion := by
  intro m as hpos hne hlt
  have hbatch : batchUnit m as = (modInv m (totalProduct m as)).map fun u =>
      unwindProducts m u as.reverse (runningProducts m 1 as).reverse := by
    simp only [batchUnit, runningProducts_getLastD hne]
    cases modInv m (totalProduct m as) <;> rfl
  have hnone_of (a : Nat) (ha : a ∈ as) (h : modInv m a = none) : invAll m as = none := invAll_eq_none.mpr ⟨a, ha, h⟩
  rw [hbatch]
  by_cases hm : 1 < m
  · cases hinv : modInv m (totalProduct m as) with
    | some u =>
      obtain ⟨hu, hone⟩ := (modInv_eq_some hm).mp hinv
      exact (invAll_eq_some.mpr (unwindProducts_spec hm hne hu hone)).symm
    | none =>
      have hcop := mt coprime_totalProduct ((modInv_eq_none hm).mp hinv)
      simp only [not_forall] at hcop
      obtain ⟨a, ha, hbad⟩ := hcop
      exact (hnone_of a ha ((modInv_eq_none hm).mpr hbad)).symm
  · obtain rfl : m = 1 := by omega
    have hzero : totalProduct 1 as = 0 := by
      obtain ⟨init, a, rfl⟩ := (List.eq_nil_or_concat' as).resolve_left hne
      rw [totalProduct_snoc, Nat.mod_one]
    obtain ⟨a, ha⟩ := List.exists_mem_of_ne_nil as hne
    rw [hzero, modInv_zero, Option.map_none, hnone_of a ha (by rw [Nat.lt_one_iff.mp (hlt a ha), modInv_zero])]

/-! ### The least square root (R222) -/

theorem rootFrom_eq_some {m a k r q : Nat} :
    rootFrom m a k r = some q ↔ r ≤ q ∧ q < r + k ∧ q * q % m = a ∧ ∀ u, r ≤ u → u < q → u * u % m ≠ a := by
  induction k generalizing r with
  | zero => simp [rootFrom]; omega
  | succ k ih =>
    rw [rootFrom]
    split
    next hr =>
      rw [Option.some.injEq]
      constructor
      · rintro rfl
        exact ⟨le_rfl, by omega, hr, fun u h1 h2 => by omega⟩
      · rintro ⟨hle, -, -, hmin⟩
        by_contra hne
        exact hmin r le_rfl (by omega) hr
    next hr =>
      rw [ih]
      constructor
      · rintro ⟨h1, h2, h3, h4⟩
        refine ⟨by omega, by omega, h3, fun u hu huq => ?_⟩
        rcases hu.eq_or_lt with rfl | hlt
        · exact hr
        · exact h4 u hlt huq
      · rintro ⟨h1, h2, h3, h4⟩
        have hne : r ≠ q := by rintro rfl; exact hr h3
        exact ⟨by omega, by omega, h3, fun u hu huq => h4 u (by omega) huq⟩

theorem leastRoot_eq_some {m a q : Nat} :
    leastRoot m a = some q ↔ q < m ∧ q * q % m = a ∧ ∀ u, u < q → u * u % m ≠ a := by
  simp [leastRoot, rootFrom_eq_some]

theorem leastRoot_eq_none {m a : Nat} : leastRoot m a = none ↔ ∀ r, r < m → r * r % m ≠ a := by
  constructor
  · intro h r hr hroot
    classical
    have hex : ∃ q, q < m ∧ q * q % m = a := ⟨r, hr, hroot⟩
    obtain ⟨h1, h2⟩ := Nat.find_spec hex
    have hsome : leastRoot m a = some (Nat.find hex) :=
      leastRoot_eq_some.mpr ⟨h1, h2, fun u hu hroot' => Nat.find_min hex hu ⟨by omega, hroot'⟩⟩
    rw [h] at hsome
    cases hsome
  · intro h
    cases hq : leastRoot m a with
    | none => rfl
    | some q =>
      obtain ⟨hlt, hroot, -⟩ := leastRoot_eq_some.mp hq
      exact absurd hroot (h q hlt)

/-- Settles O34. -/
theorem squareRootCommand : Obligations.SquareRootCommand := by
  intro s h rd rs1
  refine ⟨fun ht => faults_of_body rfl (by rw [State.needFp_of_raw ht]; rfl), fun c e ht he => ?_⟩
  obtain ⟨hadm, hpos, hbits⟩ := h.ctx_use he
  have hfp := State.needFp_of_tag ht he
  refine ⟨fun hno => ?_, fun r hr hroot hmin => ?_⟩
  · have hnone : leastRoot (primeView c e).ctx.m (s.fpVal (primeView c e) rs1) = none := leastRoot_eq_none.mpr hno
    refine exec_of_body (t := s.setT false) (i := .fsqrt rd rs1) rfl ?_
    rw [hfp]
    simp only [bind, Except.bind, hnone]
  · have hsome : leastRoot (primeView c e).ctx.m (s.fpVal (primeView c e) rs1) = some r :=
      leastRoot_eq_some.mpr ⟨hr, hroot, hmin⟩
    refine ⟨_, exec_of_body (t := (s.setFp (primeView c e) rd r).setT true) (i := .fsqrt rd rs1) rfl ?_,
      fieldResult_setFp (s := { s with t := true }) hadm hbits hr⟩
    rw [hfp]
    simp only [bind, Except.bind, hsome]

end Sys2Proof.Machine
end

section
/-! The algorithm of Tonelli and Shanks over an odd prime (R223), read in `ZMod m`. -/

namespace Sys2Proof.Machine

theorem natCast_modPow (m a e : Nat) : ((modPow m a e : Nat) : ZMod m) = (a : ZMod m) ^ e := by
  rw [modPow_eq, ZMod.natCast_mod, Nat.cast_pow]

theorem modPow_lt {m : Nat} (hm : 0 < m) (a e : Nat) : modPow m a e < m := by
  rw [modPow_eq]
  exact Nat.mod_lt _ hm

theorem natCast_eq_one_iff {m t : Nat} (ht : t < m) : t = 1 % m ↔ (t : ZMod m) = 1 := by
  have hcast : ((1 : Nat) : ZMod m) = 1 := Nat.cast_one
  rw [← hcast, ZMod.natCast_eq_natCast_iff', Nat.mod_eq_of_lt ht]

/-! ### The parts of the algorithm -/

/-- Halving keeps the value `q * 2^s`, and ends with an odd `q` when there were enough turns. -/
theorem splitPowerOfTwo_spec (n : Nat) : ∀ q s, q ≠ 0 → q < 2 ^ n →
    (splitPowerOfTwo n q s).1 * 2 ^ (splitPowerOfTwo n q s).2 = q * 2 ^ s ∧ (splitPowerOfTwo n q s).1 % 2 = 1 ∧
      s ≤ (splitPowerOfTwo n q s).2 := by
  induction n with
  | zero => intro q s h0 h1; omega
  | succ n ih =>
    intro q s h0 h1
    rw [splitPowerOfTwo]
    split
    next heven =>
      obtain ⟨hval, hodd, hle⟩ := ih (q / 2) (s + 1) (by omega) (by rw [pow_succ] at h1; omega)
      refine ⟨?_, hodd, by omega⟩
      obtain ⟨k, rfl⟩ : 2 ∣ q := Nat.dvd_of_mod_eq_zero heven.1
      rw [hval, Nat.mul_div_cancel_left k (by decide), pow_succ]
      ring
    next hodd => exact ⟨rfl, by omega, le_rfl⟩

/-- The search finds a candidate that passes Euler's test, where there is one in reach. -/
theorem nonResidueFrom_spec {m : Nat} (n : Nat) : ∀ z, (∃ w, z ≤ w ∧ w < z + n ∧ modPow m w ((m - 1) / 2) = m - 1) →
    modPow m (nonResidueFrom m n z) ((m - 1) / 2) = m - 1 := by
  induction n with
  | zero => rintro z ⟨w, h1, h2, -⟩; omega
  | succ n ih =>
    rintro z ⟨w, h1, h2, hw⟩
    rw [nonResidueFrom]
    split
    next hz => exact hz
    next hz =>
      have hne : z ≠ w := by rintro rfl; exact hz hw
      exact ih (z + 1) ⟨w, by omega, by omega, hw⟩

/-- The least exponent `i` from `i0` on with `x^(2^i) = 1`, where there is one in reach. -/
theorem orderExponent_spec {m : Nat} (x : ZMod m) (n : Nat) : ∀ t i d, t < m → (t : ZMod m) = x ^ 2 ^ i → d ≤ n →
    x ^ 2 ^ (i + d) = 1 →
    i ≤ orderExponent m n t i ∧ orderExponent m n t i ≤ i + d ∧ x ^ 2 ^ orderExponent m n t i = 1 ∧
      ∀ j, i ≤ j → j < orderExponent m n t i → x ^ 2 ^ j ≠ 1 := by
  induction n with
  | zero =>
    intro t i d _ _ hd h1
    obtain rfl : d = 0 := by omega
    exact ⟨le_rfl, le_rfl, h1, fun j h1 h2 => by simp only [orderExponent] at h2; omega⟩
  | succ n ih =>
    intro t i d ht hx hd h1
    rw [orderExponent]
    split
    next hone =>
      rw [natCast_eq_one_iff ht, hx] at hone
      exact ⟨le_rfl, by omega, hone, fun j h1 h2 => by omega⟩
    next hone =>
      rw [natCast_eq_one_iff ht, hx] at hone
      have hd0 : d ≠ 0 := by rintro rfl; exact hone h1
      obtain ⟨hlo, hhi, hat, hmin⟩ := ih (t * t % m) (i + 1) (d - 1) (Nat.mod_lt _ (by omega))
        (by rw [ZMod.natCast_mod, Nat.cast_mul, hx, ← pow_two, ← pow_mul, pow_succ]) (by omega)
        (by rw [show i + 1 + (d - 1) = i + d by omega]; exact h1)
      refine ⟨by omega, by omega, hat, fun j hj hlt => ?_⟩
      rcases hj.eq_or_lt with rfl | hj'
      · exact hone
      · exact hmin j hj' hlt

section
variable {m : Nat} [Fact m.Prime]

/-- What the main loop keeps: `r^2 = a * t`, with `t` a root of 1 of order below `2^M`, and `c` one of order `2^M`. The
loop ends with a root of `a`. -/
theorem tonelliLoop_spec {a : ZMod m} (n : Nat) : ∀ mm c t r : Nat, 0 < mm → mm ≤ n → t < m → r < m →
    (r : ZMod m) ^ 2 = a * t → (t : ZMod m) ^ 2 ^ (mm - 1) = 1 → (c : ZMod m) ^ 2 ^ (mm - 1) = -1 →
    tonelliLoop m n mm c t r < m ∧ ((tonelliLoop m n mm c t r : Nat) : ZMod m) ^ 2 = a := by
  induction n with
  | zero => intro mm c t r h1 h2; omega
  | succ n ih =>
    intro mm c t r hmm hle ht hr hroot htord hcord
    have hm : 0 < m := by omega
    rw [tonelliLoop]
    split
    next hone =>
      rw [natCast_eq_one_iff ht] at hone
      exact ⟨hr, by rw [hroot, hone, mul_one]⟩
    next hone =>
      rw [natCast_eq_one_iff ht] at hone
      have hmm2 : 2 ≤ mm := by
        by_contra hlt
        obtain rfl : mm = 1 := by omega
        exact hone (by simpa using htord)
      obtain ⟨hlo, hhi, hat, hmin⟩ := orderExponent_spec (t : ZMod m) mm (t * t % m) 1 (mm - 2)
        (Nat.mod_lt _ hm) (by rw [ZMod.natCast_mod, Nat.cast_mul, pow_one, pow_two]) (by omega)
        (by rw [show 1 + (mm - 2) = mm - 1 by omega]; exact htord)
      generalize horder : orderExponent m mm (t * t % m) 1 = i at hlo hhi hat hmin
      have hb : ((modPow m c (2 ^ (mm - i - 1)) : Nat) : ZMod m) ^ 2 = (c : ZMod m) ^ 2 ^ (mm - i) := by
        rw [natCast_modPow, ← pow_mul, ← pow_succ, show mm - i - 1 + 1 = mm - i by omega]
      have hbord : ((c : ZMod m) ^ 2 ^ (mm - i)) ^ 2 ^ (i - 1) = -1 := by
        rw [← pow_mul, ← pow_add, show mm - i + (i - 1) = mm - 1 by omega, hcord]
      have htneg : (t : ZMod m) ^ 2 ^ (i - 1) = -1 := by
        have hsq : ((t : ZMod m) ^ 2 ^ (i - 1)) ^ 2 = 1 := by
          rw [← pow_mul, ← pow_succ, show i - 1 + 1 = i by omega, hat]
        refine (sq_eq_one_iff.mp hsq).resolve_left ?_
        rcases hlo.eq_or_lt with rfl | hlt
        · simpa using hone
        · exact hmin (i - 1) (by omega) (by omega)
      refine ih i _ _ _ (by omega) (by omega) (Nat.mod_lt _ hm) (Nat.mod_lt _ hm) ?_ ?_ ?_
      · simp only [ZMod.natCast_mod, Nat.cast_mul]
        rw [mul_pow, hroot, ← pow_two]
        ring
      · simp only [ZMod.natCast_mod, Nat.cast_mul]
        rw [← pow_two, hb, mul_pow, htneg, hbord]
        ring
      · simp only [ZMod.natCast_mod, Nat.cast_mul]
        rw [← pow_two, hb, hbord]

/-! ### The algorithm -/

/-- Over a prime the roots of a value are one root and its negative; the lesser of the two is the least root (R222). -/
theorem leastRoot_of_root {a r : Nat} (ha : a < m) (h0 : a ≠ 0) (hr : r < m) (hroot : (r : ZMod m) ^ 2 = a) :
    leastRoot m a = some (min r (m - r)) := by
  have hcast : ∀ u : Nat, u * u % m = a ↔ (u : ZMod m) ^ 2 = a := by
    intro u
    rw [pow_two, ← Nat.cast_mul, ZMod.natCast_eq_natCast_iff', Nat.mod_eq_of_lt ha]
  have hneg : ((m - r : Nat) : ZMod m) = -r := by rw [Nat.cast_sub hr.le, CharP.cast_eq_zero, zero_sub]
  have hr0 : r ≠ 0 := by
    rintro rfl
    have hzero := (hcast 0).mpr hroot
    simp only [mul_zero, Nat.zero_mod] at hzero
    exact h0 hzero.symm
  rw [leastRoot_eq_some]
  refine ⟨by omega, ?_, fun u hu huroot => ?_⟩
  · rcases min_choice r (m - r) with h | h <;> rw [h, hcast]
    · exact hroot
    · rw [hneg, neg_sq, hroot]
  · have hsame : (u : ZMod m) ^ 2 = (r : ZMod m) ^ 2 := by rw [(hcast u).mp huroot, hroot]
    rcases sq_eq_sq_iff_eq_or_eq_neg.mp hsame with h | h
    · rw [ZMod.natCast_eq_natCast_iff', Nat.mod_eq_of_lt hr, Nat.mod_eq_of_lt (by omega)] at h
      omega
    · rw [← hneg, ZMod.natCast_eq_natCast_iff', Nat.mod_eq_of_lt (show m - r < m by omega),
        Nat.mod_eq_of_lt (by omega)] at h
      omega

/-- Some candidate passes Euler's test (R223). -/
theorem exists_nonResidue (h2 : m ≠ 2) : ∃ w, 2 ≤ w ∧ w < 2 + m ∧ modPow m w ((m - 1) / 2) = m - 1 := by
  have hodd := (Fact.out : m.Prime).eq_two_or_odd.resolve_left h2
  have hpos := (Fact.out : m.Prime).pos
  obtain ⟨x, hx⟩ := FiniteField.exists_nonsquare (F := ZMod m) (by rwa [ZMod.ringChar_zmod_n])
  have hx0 : x ≠ 0 := by rintro rfl; exact hx (IsSquare.zero)
  have hval : ((x.val : Nat) : ZMod m) = x := ZMod.natCast_zmod_val x
  have hlt := ZMod.val_lt x
  refine ⟨x.val, ?_, by omega, ?_⟩
  · by_contra hsmall
    have h01 : x.val = 0 ∨ x.val = 1 := by omega
    rcases h01 with h | h <;> rw [h] at hval
    · exact hx0 (by simpa using hval.symm)
    · exact hx ⟨1, by simpa using hval.symm⟩
  · have hneg : x ^ ((m - 1) / 2) = -1 := by
      rw [show (m - 1) / 2 = m / 2 by omega]
      exact (ZMod.pow_div_two_eq_neg_one_or_one m hx0).resolve_left (mt (ZMod.euler_criterion m hx0).mpr hx)
    have hcast : ((modPow m x.val ((m - 1) / 2) : Nat) : ZMod m) = ((m - 1 : Nat) : ZMod m) := by
      rw [natCast_modPow, hval, hneg, Nat.cast_sub hpos, CharP.cast_eq_zero, Nat.cast_one, zero_sub]
    rwa [ZMod.natCast_eq_natCast_iff', Nat.mod_eq_of_lt (modPow_lt hpos _ _),
      Nat.mod_eq_of_lt (show m - 1 < m by omega)] at hcast

/-- The fast path for a modulus that is 3 modulo 4 (R223). -/
theorem fastRoot_spec {a : Nat} (h4 : m % 4 = 3) (heuler : (a : ZMod m) ^ ((m - 1) / 2) = 1) :
    ((modPow m a ((m + 1) / 4) : Nat) : ZMod m) ^ 2 = a := by
  rw [natCast_modPow, ← pow_mul, show (m + 1) / 4 * 2 = (m - 1) / 2 + 1 by omega, pow_succ, heuler, one_mul]

/-- The general path (R223). -/
theorem loopRoot_spec {a q s z : Nat} (hpos : 0 < m) (hs : 0 < s) (hodd : q % 2 = 1) (hsplit : q * 2 ^ s = m - 1)
    (hz : modPow m z ((m - 1) / 2) = m - 1) (heuler : (a : ZMod m) ^ ((m - 1) / 2) = 1) :
    let r := tonelliLoop m s s (modPow m z q) (modPow m a q) (modPow m a ((q + 1) / 2))
    r < m ∧ (r : ZMod m) ^ 2 = a := by
  have hhalf : q * 2 ^ (s - 1) = (m - 1) / 2 := by
    obtain ⟨k, rfl⟩ : ∃ k, s = k + 1 := ⟨s - 1, by omega⟩
    rw [Nat.add_sub_cancel, ← hsplit, pow_succ, ← mul_assoc, Nat.mul_div_cancel _ (by decide)]
  refine tonelliLoop_spec s s _ _ _ hs le_rfl (modPow_lt hpos _ _) (modPow_lt hpos _ _) ?_ ?_ ?_
  · rw [natCast_modPow, natCast_modPow, ← pow_mul, ← pow_succ', show (q + 1) / 2 * 2 = q + 1 by omega]
  · rw [natCast_modPow, ← pow_mul, hhalf, heuler]
  · rw [natCast_modPow, ← pow_mul, hhalf, ← natCast_modPow, hz, Nat.cast_sub hpos, CharP.cast_eq_zero, Nat.cast_one,
      zero_sub]

theorem tonelliRoot_eq_leastRoot {a : Nat} (h2 : m ≠ 2) (ha : a < m) : tonelliRoot m a = leastRoot m a := by
  have hodd := (Fact.out : m.Prime).eq_two_or_odd.resolve_left h2
  have hone := (Fact.out : m.Prime).one_lt
  have heuler_cast : modPow m a ((m - 1) / 2) = 1 ↔ (a : ZMod m) ^ ((m - 1) / 2) = 1 := by
    rw [← natCast_modPow, ← natCast_eq_one_iff (modPow_lt (by omega) _ _), Nat.mod_eq_of_lt hone]
  rw [tonelliRoot]
  split
  next h0 =>
    subst h0
    exact (leastRoot_eq_some.mpr ⟨by omega, Nat.zero_mod m, fun u hu => absurd hu (Nat.not_lt_zero u)⟩).symm
  next h0 =>
    have ha0 : (a : ZMod m) ≠ 0 := by
      rw [Ne, ZMod.natCast_eq_zero_iff]
      exact fun hdvd => h0 (Nat.eq_zero_of_dvd_of_lt hdvd ha)
    split
    next hno =>
      rw [Ne, heuler_cast, show (m - 1) / 2 = m / 2 by omega, ← ZMod.euler_criterion m ha0] at hno
      refine (leastRoot_eq_none.mpr fun r hr hroot => hno ⟨r, ?_⟩).symm
      rw [← Nat.cast_mul, ← ZMod.natCast_mod (r * r), hroot]
    next hyes =>
      have heuler := heuler_cast.mp (not_not.mp hyes)
      by_cases h4 : m % 4 = 3
      · simp only [if_pos h4]
        exact (leastRoot_of_root ha h0 (modPow_lt (by omega) _ _) (fastRoot_spec h4 heuler)).symm
      · simp only [if_neg h4]
        obtain ⟨hval, hqodd, -⟩ := splitPowerOfTwo_spec (bitLength m) (m - 1) 0 (by omega)
          (by have := lt_two_pow_bitLength m; omega)
        rw [pow_zero, mul_one] at hval
        have hs : 0 < (splitPowerOfTwo (bitLength m) (m - 1) 0).2 := by
          by_contra hzero
          rw [Nat.eq_zero_of_not_pos hzero, pow_zero, mul_one] at hval
          omega
        obtain ⟨hlt, hroot⟩ := loopRoot_spec (by omega) hs hqodd hval
          (nonResidueFrom_spec m 2 (exists_nonResidue h2)) heuler
        exact (leastRoot_of_root ha h0 hlt hroot).symm

end

/-- Settles O35. -/
theorem tonelliShanks : Obligations.TonelliShanks := by
  refine ⟨fun m a hp h2 ha => ?_, fun a ha => ?_⟩
  · have : Fact m.Prime := ⟨hp⟩
    exact tonelliRoot_eq_leastRoot h2 ha
  · have h01 : a = 0 ∨ a = 1 := by omega
    rcases h01 with rfl | rfl <;> rfl

end Sys2Proof.Machine
end

section
/-! Each tier as a commutative ring of Mathlib (R240, R257): a model of a tier names its elements by the elements of a ring,
so that identities between elements are identities of the ring. -/

namespace Sys2Proof.Machine

/-! ### The cubic extension `R[x]/(x^3 - beta)`, by coefficients -/

/-- The element `c0 + c1*x + c2*x^2`. -/
@[ext] structure CubicExt (R : Type) where
  c0 : R
  c1 : R
  c2 : R

section
variable {R : Type} [CommRing R]

/-- The product with `x^3` replaced by beta (R257). -/
def CubicExt.times (β : R) (a b : CubicExt R) : CubicExt R :=
  ⟨a.c0 * b.c0 + β * (a.c1 * b.c2 + a.c2 * b.c1), a.c0 * b.c1 + a.c1 * b.c0 + β * (a.c2 * b.c2),
    a.c0 * b.c2 + a.c1 * b.c1 + a.c2 * b.c0⟩

theorem CubicExt.times_assoc (β : R) (a b c : CubicExt R) :
    times β (times β a b) c = times β a (times β b c) := by
  ext <;> simp only [times] <;> ring

theorem CubicExt.times_comm (β : R) (a b : CubicExt R) : times β a b = times β b a := by
  ext <;> simp only [times] <;> ring

theorem CubicExt.times_one (β : R) (a : CubicExt R) : times β a ⟨1, 0, 0⟩ = a := by
  ext <;> simp only [times] <;> ring

theorem CubicExt.times_plus (β : R) (a b c : CubicExt R) :
    times β a ⟨b.c0 + c.c0, b.c1 + c.c1, b.c2 + c.c2⟩ =
      ⟨(times β a b).c0 + (times β a c).c0, (times β a b).c1 + (times β a c).c1,
        (times β a b).c2 + (times β a c).c2⟩ := by
  ext <;> simp only [times] <;> ring

theorem CubicExt.times_zero (β : R) (a : CubicExt R) : times β a ⟨0, 0, 0⟩ = ⟨0, 0, 0⟩ := by
  ext <;> simp only [times] <;> ring

/-- The ring `R[x]/(x^3 - beta)`. -/
@[reducible] def CubicExt.commRing (β : R) : CommRing (CubicExt R) where
  zero := ⟨0, 0, 0⟩
  one := ⟨1, 0, 0⟩
  add a b := ⟨a.c0 + b.c0, a.c1 + b.c1, a.c2 + b.c2⟩
  neg a := ⟨-a.c0, -a.c1, -a.c2⟩
  sub a b := ⟨a.c0 - b.c0, a.c1 - b.c1, a.c2 - b.c2⟩
  mul a b := times β a b
  add_assoc _ _ _ := CubicExt.ext (add_assoc _ _ _) (add_assoc _ _ _) (add_assoc _ _ _)
  zero_add _ := CubicExt.ext (zero_add _) (zero_add _) (zero_add _)
  add_zero _ := CubicExt.ext (add_zero _) (add_zero _) (add_zero _)
  add_comm _ _ := CubicExt.ext (add_comm _ _) (add_comm _ _) (add_comm _ _)
  neg_add_cancel _ := CubicExt.ext (neg_add_cancel _) (neg_add_cancel _) (neg_add_cancel _)
  sub_eq_add_neg _ _ := CubicExt.ext (sub_eq_add_neg _ _) (sub_eq_add_neg _ _) (sub_eq_add_neg _ _)
  mul_assoc := times_assoc β
  mul_comm := times_comm β
  mul_one := times_one β
  one_mul a := (times_comm β _ a).trans (times_one β a)
  left_distrib := times_plus β
  right_distrib a b c := by
    refine (times_comm β _ c).trans ((times_plus β c a b).trans ?_)
    rw [times_comm β c a, times_comm β c b]
    rfl
  mul_zero := times_zero β
  zero_mul a := (times_comm β _ a).trans (times_zero β a)
  nsmul n a := ⟨n • a.c0, n • a.c1, n • a.c2⟩
  nsmul_zero _ := CubicExt.ext (zero_nsmul _) (zero_nsmul _) (zero_nsmul _)
  nsmul_succ _ _ := CubicExt.ext (succ_nsmul _ _) (succ_nsmul _ _) (succ_nsmul _ _)
  zsmul n a := ⟨n • a.c0, n • a.c1, n • a.c2⟩
  zsmul_zero' _ := CubicExt.ext (zero_zsmul _) (zero_zsmul _) (zero_zsmul _)
  zsmul_succ' n a := CubicExt.ext (SubNegMonoid.zsmul_succ' n _) (SubNegMonoid.zsmul_succ' n _)
    (SubNegMonoid.zsmul_succ' n _)
  zsmul_neg' n a := CubicExt.ext (SubNegMonoid.zsmul_neg' n _) (SubNegMonoid.zsmul_neg' n _)
    (SubNegMonoid.zsmul_neg' n _)

end

/-! ### Lists of coordinates -/

theorem coeff_append_zero {k : Nat} {u v : Elem} (h : u.length = k) : coeff k 0 (u ++ v) = u := by
  simp [coeff, ← h]

theorem coeff_append_succ {k i : Nat} {u v : Elem} (h : u.length = k) : coeff k (i + 1) (u ++ v) = coeff k i v := by
  rw [coeff, coeff, Nat.add_mul, Nat.one_mul, Nat.add_comm, ← h, List.drop_length_add_append]

theorem coeff_self {k : Nat} {u : Elem} (h : u.length = k) : coeff k 0 u = u := by simp [coeff, ← h]

theorem Fld.elemOk_iff {f : Fld} {a : Elem} :
    f.elemOk a = true ↔ a.length = f.degree ∧ ∀ v ∈ a, v < f.char := by simp [Fld.elemOk]

theorem Fld.degree_pos (f : Fld) : 0 < f.degree := by
  induction f with
  | prime p => exact Nat.one_pos
  | quad b β g ih => exact Nat.mul_pos (by decide) ih
  | cubic b β g1 g2 ih => exact Nat.mul_pos (by decide) ih

/-! Addition, negation and difference depend on the modulus alone, so they split along the coefficients. -/

theorem Fld.add_append {f g : Fld} (hc : f.char = g.char) {u v u' v' : Elem} (h : u.length = u'.length) :
    f.add (u ++ v) (u' ++ v') = g.add u u' ++ g.add v v' := by
  simp only [Fld.add, hc, List.zipWith_append h]

theorem Fld.sub_append {f g : Fld} (hc : f.char = g.char) {u v u' v' : Elem} (h : u.length = u'.length) :
    f.sub (u ++ v) (u' ++ v') = g.sub u u' ++ g.sub v v' := by
  simp only [Fld.sub, hc, List.zipWith_append h]

theorem Fld.neg_append {f g : Fld} (hc : f.char = g.char) (u v : Elem) : f.neg (u ++ v) = g.neg u ++ g.neg v := by
  simp only [Fld.neg, hc, List.map_append]

section
variable {b : Fld} {u v w u' v' w' : Elem}

theorem Fld.add_quad (β g : Elem) (h : u.length = u'.length) :
    (Fld.quad b β g).add (u ++ v) (u' ++ v') = b.add u u' ++ b.add v v' := Fld.add_append rfl h

theorem Fld.sub_quad (β g : Elem) (h : u.length = u'.length) :
    (Fld.quad b β g).sub (u ++ v) (u' ++ v') = b.sub u u' ++ b.sub v v' := Fld.sub_append rfl h

theorem Fld.neg_quad (β g : Elem) : (Fld.quad b β g).neg (u ++ v) = b.neg u ++ b.neg v := Fld.neg_append rfl u v

theorem Fld.add_cubic (β g1 g2 : Elem) (h : u.length = u'.length) (h' : v.length = v'.length) :
    (Fld.cubic b β g1 g2).add (u ++ (v ++ w)) (u' ++ (v' ++ w')) = b.add u u' ++ (b.add v v' ++ b.add w w') :=
  (Fld.add_append rfl h).trans (congrArg _ (Fld.add_append rfl h'))

theorem Fld.sub_cubic (β g1 g2 : Elem) (h : u.length = u'.length) (h' : v.length = v'.length) :
    (Fld.cubic b β g1 g2).sub (u ++ (v ++ w)) (u' ++ (v' ++ w')) = b.sub u u' ++ (b.sub v v' ++ b.sub w w') :=
  (Fld.sub_append rfl h).trans (congrArg _ (Fld.sub_append rfl h'))

theorem Fld.neg_cubic (β g1 g2 : Elem) :
    (Fld.cubic b β g1 g2).neg (u ++ (v ++ w)) = b.neg u ++ (b.neg v ++ b.neg w) :=
  (Fld.neg_append rfl u _).trans (congrArg _ (Fld.neg_append rfl v w))

end

theorem Fld.zero_quad (b : Fld) (β g : Elem) : (Fld.quad b β g).zero = b.zero ++ b.zero := by
  simp [Fld.zero, Fld.degree, two_mul]

theorem Fld.zero_cubic (b : Fld) (β g1 g2 : Elem) : (Fld.cubic b β g1 g2).zero = b.zero ++ (b.zero ++ b.zero) := by
  simp only [Fld.zero, Fld.degree, List.replicate_append_replicate]
  congr 1
  ring

theorem Fld.embed_append {f b : Fld} {v : Elem} (h : v.length ≤ b.degree) {n : Nat} (hd : f.degree = b.degree + n) :
    f.embed v = b.embed v ++ List.replicate n 0 := by
  simp only [Fld.embed, List.append_assoc, List.replicate_append_replicate]
  congr 2
  omega

theorem Fld.embed_of_length {b : Fld} {v : Elem} (h : v.length = b.degree) : b.embed v = v := by
  simp [Fld.embed, h]

theorem Fld.embed_quad (b : Fld) (β g : Elem) {v : Elem} (h : v.length ≤ b.degree) :
    (Fld.quad b β g).embed v = b.embed v ++ b.zero :=
  Fld.embed_append h (by simp [Fld.degree, two_mul])

theorem Fld.embed_cubic (b : Fld) (β g1 g2 : Elem) {v : Elem} (h : v.length ≤ b.degree) :
    (Fld.cubic b β g1 g2).embed v = b.embed v ++ (b.zero ++ b.zero) := by
  rw [Fld.embed_append (n := 2 * b.degree) h (by simp only [Fld.degree]; ring), two_mul, ← List.replicate_append_replicate]
  rfl

theorem Fld.one_quad (b : Fld) (β g : Elem) : (Fld.quad b β g).one = b.one ++ b.zero :=
  Fld.embed_quad b β g (Fld.degree_pos b)

theorem Fld.one_cubic (b : Fld) (β g1 g2 : Elem) : (Fld.cubic b β g1 g2).one = b.one ++ (b.zero ++ b.zero) :=
  Fld.embed_cubic b β g1 g2 (Fld.degree_pos b)

theorem Fld.elemOk_append {f b : Fld} (hc : f.char = b.char) {n : Nat} (hd : f.degree = b.degree + n) {u v : Elem}
    (hu : u.length = b.degree) :
    f.elemOk (u ++ v) = true ↔ b.elemOk u = true ∧ v.length = n ∧ ∀ w ∈ v, w < b.char := by
  simp only [Fld.elemOk_iff, List.length_append, List.mem_append, hc, hd, hu]
  constructor
  · rintro ⟨hlen, hall⟩
    exact ⟨⟨trivial, fun w hw => hall w (.inl hw)⟩, by omega, fun w hw => hall w (.inr hw)⟩
  · rintro ⟨⟨-, hall⟩, hlen, hall'⟩
    exact ⟨by omega, fun w hw => hw.elim (hall w) (hall' w)⟩

theorem Fld.elemOk_quad {b : Fld} {β g u v : Elem} (hu : u.length = b.degree) :
    (Fld.quad b β g).elemOk (u ++ v) = true ↔ b.elemOk u = true ∧ b.elemOk v = true := by
  rw [Fld.elemOk_append (f := .quad b β g) (b := b) (n := b.degree) rfl (by simp [Fld.degree, two_mul]) hu, Fld.elemOk_iff (a := v)]

theorem Fld.elemOk_cubic {b : Fld} {β g1 g2 u v w : Elem} (hu : u.length = b.degree) (hv : v.length = b.degree) :
    (Fld.cubic b β g1 g2).elemOk (u ++ (v ++ w)) = true ↔
      b.elemOk u = true ∧ b.elemOk v = true ∧ b.elemOk w = true := by
  rw [Fld.elemOk_append (f := .cubic b β g1 g2) (b := b) (n := 2 * b.degree) rfl (by simp only [Fld.degree]; ring) hu,
    ← Fld.elemOk_quad (β := β) (g := g1) hv, Fld.elemOk_iff (f := .quad b β g1)]
  rfl

/-- An element of a quadratic tier is its two coefficients. -/
theorem Fld.exists_append_of_quad {b : Fld} {β g a : Elem} (h : (Fld.quad b β g).elemOk a = true) :
    ∃ u v, a = u ++ v ∧ b.elemOk u = true ∧ b.elemOk v = true := by
  have hlen : (a.take b.degree).length = b.degree := by
    have := (Fld.elemOk_iff.mp h).1
    simp only [Fld.degree] at this
    simp [this]
    omega
  rw [← List.take_append_drop b.degree a, Fld.elemOk_quad hlen] at h
  exact ⟨_, _, (List.take_append_drop b.degree a).symm, h⟩

/-- An element of a cubic tier is its three coefficients. -/
theorem Fld.exists_append_of_cubic {b : Fld} {β g1 g2 a : Elem} (h : (Fld.cubic b β g1 g2).elemOk a = true) :
    ∃ u v w, a = u ++ (v ++ w) ∧ b.elemOk u = true ∧ b.elemOk v = true ∧ b.elemOk w = true := by
  have hlen := (Fld.elemOk_iff.mp h).1
  simp only [Fld.degree] at hlen
  have hu : (a.take b.degree).length = b.degree := by simp [hlen]; omega
  have hv : ((a.drop b.degree).take b.degree).length = b.degree := by simp [hlen]; omega
  have hsplit : a = a.take b.degree ++ ((a.drop b.degree).take b.degree ++ (a.drop b.degree).drop b.degree) := by
    rw [List.take_append_drop, List.take_append_drop]
  rw [hsplit, Fld.elemOk_cubic hu hv] at h
  exact ⟨_, _, _, hsplit, h⟩

/-! ### Models -/

/-- A ring whose elements name the elements of a tier, with the tier's operations. -/
structure Fld.Model (f : Fld) (R : Type) [CommRing R] where
  val : R → Elem
  inj : Function.Injective val
  ok_iff : ∀ a, f.elemOk a = true ↔ ∃ x, val x = a
  zero : f.zero = val 0
  one : f.one = val 1
  add : ∀ x y, f.add (val x) (val y) = val (x + y)
  neg : ∀ x, f.neg (val x) = val (-x)
  sub : ∀ x y, f.sub (val x) (val y) = val (x - y)
  mul : ∀ x y, f.mul (val x) (val y) = val (x * y)

section
variable {R : Type} [CommRing R]

theorem Fld.Model.ok {f : Fld} (m : f.Model R) (x : R) : f.elemOk (m.val x) = true := (m.ok_iff _).mpr ⟨x, rfl⟩

@[simp] theorem Fld.Model.length {f : Fld} (m : f.Model R) (x : R) : (m.val x).length = f.degree :=
  (Fld.elemOk_iff.mp (m.ok x)).1

theorem Fld.Model.exists_of_ok {f : Fld} (m : f.Model R) {a : Elem} (h : f.elemOk a = true) : ∃ x, m.val x = a :=
  (m.ok_iff a).mp h

@[simp] theorem Fld.Model.val_inj {f : Fld} (m : f.Model R) {x y : R} : m.val x = m.val y ↔ x = y := m.inj.eq_iff

end

/-- The prime field of a modulus is the ring of residues. -/
def Fld.primeModel (p : Nat) (hp : 0 < p) : (Fld.prime p).Model (ZMod p) :=
  haveI : NeZero p := ⟨hp.ne'⟩
  have hcast : ∀ (n : Nat) (x : ZMod p), (n : ZMod p) = x → n % p = x.val := fun n x h => by
    rw [← h, ZMod.val_natCast]
  have hsub : ∀ (u v : Nat) (x : ZMod p), (u : ZMod p) - v = x → subMod p u v = x.val := fun u v x h => by
    rw [← hcast (subMod p u v) x ?_, Nat.mod_eq_of_lt (subMod_lt hp u v)]
    rw [← h, eq_sub_iff_add_eq, ← Nat.cast_add, ZMod.natCast_eq_natCast_iff', subMod_add hp]
  { val := fun x => [x.val]
    inj := fun x y h => ZMod.val_injective p (by simpa using h)
    ok_iff := fun a => by
      rw [Fld.elemOk_iff]
      constructor
      · rintro ⟨hlen, hall⟩
        obtain ⟨n, rfl⟩ := List.length_eq_one_iff.mp hlen
        have hn : n < p := hall n (by simp)
        exact ⟨(n : ZMod p), by rw [ZMod.val_natCast, Nat.mod_eq_of_lt hn]⟩
      · rintro ⟨x, rfl⟩
        exact ⟨rfl, fun v hv => by rw [List.mem_singleton.mp hv]; exact ZMod.val_lt x⟩
    zero := by rw [ZMod.val_zero]; rfl
    one := congrArg (fun n : Nat => [n]) (hcast 1 1 Nat.cast_one)
    add := fun x y => congrArg (fun n : Nat => [n]) (hcast _ _ (by simp))
    neg := fun x => congrArg (fun n : Nat => [n]) (hsub 0 x.val _ (by simp))
    sub := fun x y => congrArg (fun n : Nat => [n]) (hsub x.val y.val _ (by simp))
    mul := fun x y => congrArg (fun n : Nat => [n]) (hcast _ _ (by simp)) }

section
variable {R : Type} [CommRing R] {b : Fld}

theorem Fld.Model.quad_mul (m : b.Model R) (β : R) (g : Elem) (a0 a1 b0 b1 : R) :
    (Fld.quad b (m.val β) g).mul (m.val a0 ++ m.val a1) (m.val b0 ++ m.val b1) =
      m.val (a0 * b0 + β * (a1 * b1)) ++ m.val (a0 * b1 + a1 * b0) := by
  simp only [Fld.mul, coeff_append_zero, coeff_append_succ, coeff_self, m.length, m.mul, m.add]

theorem Fld.Model.cubic_mul (m : b.Model R) (β : R) (g1 g2 : Elem) (a0 a1 a2 b0 b1 b2 : R) :
    (Fld.cubic b (m.val β) g1 g2).mul (m.val a0 ++ (m.val a1 ++ m.val a2)) (m.val b0 ++ (m.val b1 ++ m.val b2)) =
      m.val (a0 * b0 + β * (a1 * b2 + a2 * b1)) ++
        (m.val (a0 * b1 + a1 * b0 + β * (a2 * b2)) ++ m.val (a0 * b2 + a1 * b1 + a2 * b0)) := by
  simp only [Fld.mul, coeff_append_zero, coeff_append_succ, coeff_self, m.length, m.mul, m.add]

theorem Fld.Model.append_inj (m : b.Model R) {x y : R} {u v : Elem} :
    m.val x ++ u = m.val y ++ v ↔ x = y ∧ u = v := by
  rw [← m.val_inj]
  exact ⟨fun h => List.append_inj h (by simp), fun h => by rw [h.1, h.2]⟩

/-- The quadratic tier over a modelled base is modelled by `R[x]/(x^2 - beta)`. -/
def Fld.Model.quad (m : b.Model R) (β : R) (g : Elem) : (Fld.quad b (m.val β) g).Model (QuadraticAlgebra R β 0) where
  val x := m.val x.re ++ m.val x.im
  inj x y h := by
    obtain ⟨hre, him⟩ := m.append_inj.mp h
    exact QuadraticAlgebra.ext hre (m.inj him)
  ok_iff a := by
    constructor
    · intro h
      obtain ⟨u, v, rfl, hu, hv⟩ := Fld.exists_append_of_quad h
      obtain ⟨x, rfl⟩ := m.exists_of_ok hu
      obtain ⟨y, rfl⟩ := m.exists_of_ok hv
      exact ⟨⟨x, y⟩, rfl⟩
    · rintro ⟨x, rfl⟩
      exact (Fld.elemOk_quad (m.length _)).mpr ⟨m.ok _, m.ok _⟩
  zero := by rw [Fld.zero_quad, m.zero]; rfl
  one := by rw [Fld.one_quad, m.one, m.zero]; rfl
  add x y := by rw [Fld.add_quad _ _ (by simp), m.add, m.add]; rfl
  neg x := by rw [Fld.neg_quad, m.neg, m.neg]; rfl
  sub x y := by rw [Fld.sub_quad _ _ (by simp), m.sub, m.sub]; rfl
  mul x y := by
    rw [m.quad_mul, QuadraticAlgebra.re_mul, QuadraticAlgebra.im_mul]
    congr 2 <;> ring

/-- The cubic tier over a modelled base is modelled by `R[x]/(x^3 - beta)`. -/
def Fld.Model.cubic (m : b.Model R) (β : R) (g1 g2 : Elem) :
    @Fld.Model (.cubic b (m.val β) g1 g2) (CubicExt R) (CubicExt.commRing β) :=
  letI := CubicExt.commRing β
  { val := fun x => m.val x.c0 ++ (m.val x.c1 ++ m.val x.c2)
    inj := fun x y h => by
      obtain ⟨h0, h12⟩ := m.append_inj.mp h
      obtain ⟨h1, h2⟩ := m.append_inj.mp h12
      exact CubicExt.ext h0 h1 (m.inj h2)
    ok_iff := fun a => by
      constructor
      · intro h
        obtain ⟨u, v, w, rfl, hu, hv, hw⟩ := Fld.exists_append_of_cubic h
        obtain ⟨x, rfl⟩ := m.exists_of_ok hu
        obtain ⟨y, rfl⟩ := m.exists_of_ok hv
        obtain ⟨z, rfl⟩ := m.exists_of_ok hw
        exact ⟨⟨x, y, z⟩, rfl⟩
      · rintro ⟨x, rfl⟩
        exact (Fld.elemOk_cubic (m.length _) (m.length _)).mpr ⟨m.ok _, m.ok _, m.ok _⟩
    zero := by rw [Fld.zero_cubic, m.zero]; rfl
    one := by rw [Fld.one_cubic, m.one, m.zero]; rfl
    add := fun x y => by rw [Fld.add_cubic _ _ _ (by simp) (by simp), m.add, m.add, m.add]; rfl
    neg := fun x => by rw [Fld.neg_cubic, m.neg, m.neg, m.neg]; rfl
    sub := fun x y => by rw [Fld.sub_cubic _ _ _ (by simp) (by simp), m.sub, m.sub, m.sub]; rfl
    mul := fun x y => m.cubic_mul β g1 g2 _ _ _ _ _ _ }

end

theorem Fld.wf_quad {b : Fld} {β g : Elem} :
    (Fld.quad b β g).wf = true ↔ b.wf = true ∧ b.elemOk β = true ∧ b.elemOk g = true := by
  simp [Fld.wf, and_assoc]

theorem Fld.wf_cubic {b : Fld} {β g1 g2 : Elem} :
    (Fld.cubic b β g1 g2).wf = true ↔
      b.wf = true ∧ b.elemOk β = true ∧ b.elemOk g1 = true ∧ b.elemOk g2 = true := by
  simp [Fld.wf, and_assoc]

/-- Every tier with constants in range has a model (R240, R257). -/
theorem Fld.exists_model {f : Fld} (h : f.wf = true) : ∃ (R : Type) (_ : CommRing R), Nonempty (f.Model R) := by
  induction f with
  | prime p => exact ⟨ZMod p, inferInstance, ⟨Fld.primeModel p (of_decide_eq_true h)⟩⟩
  | quad b β g ih =>
    obtain ⟨hb, hβ, -⟩ := Fld.wf_quad.mp h
    obtain ⟨R, _, ⟨m⟩⟩ := ih hb
    obtain ⟨x, rfl⟩ := m.exists_of_ok hβ
    exact ⟨_, _, ⟨m.quad x g⟩⟩
  | cubic b β g1 g2 ih =>
    obtain ⟨hb, hβ, -⟩ := Fld.wf_cubic.mp h
    obtain ⟨R, _, ⟨m⟩⟩ := ih hb
    obtain ⟨x, rfl⟩ := m.exists_of_ok hβ
    exact ⟨_, _, ⟨m.cubic x g1 g2⟩⟩

/-! ### The operations that are made of the ring operations -/

section
variable {R : Type} [CommRing R] {f : Fld} (m : f.Model R)

theorem Fld.Model.sqr (x : R) : f.sqr (m.val x) = m.val (x ^ 2) := by rw [Fld.sqr, m.mul, pow_two]

theorem Fld.Model.times (n : Nat) (x : R) : f.times n (m.val x) = m.val (n * x) := by
  induction n with
  | zero => simp [Fld.times, m.zero]
  | succ n ih => rw [Fld.times, ih, m.add, Nat.cast_succ, add_mul, one_mul]

theorem Fld.Model.sumOf (n : Nat) (x : R) : f.sumOf n (m.val x) = m.val (n * x) := by
  rw [Fld.sumOf]
  induction n with
  | zero => simp [m.zero]
  | succ n ih => rw [Function.iterate_succ_apply', ih, m.add, Nat.cast_succ, add_mul, one_mul]

theorem Fld.Model.prodOf (n : Nat) (x : R) : f.prodOf n (m.val x) = m.val (x ^ n) := by
  rw [Fld.prodOf]
  induction n with
  | zero => simp [m.one]
  | succ n ih => rw [Function.iterate_succ_apply', ih, m.mul, pow_succ]

theorem Fld.Model.powFrom (x : R) (e n : Nat) (r : R) :
    powFrom f.mul (m.val x) e n (m.val r) = m.val (powFrom (· * ·) x e n r) := by
  induction n generalizing r with
  | zero => rfl
  | succ n ih =>
    rw [Machine.powFrom, Machine.powFrom, ← ih]
    congr 1
    split
    · rw [m.mul, m.mul]
    · rw [m.mul]

theorem Fld.Model.pow (x : R) (e : Nat) : f.pow (m.val x) e = m.val (x ^ e) := by
  have hpow : powBy (· * ·) 1 x e = x ^ e :=
    (powBy_map (φ := id) (P := fun _ : R => True) (fun _ _ _ _ => trivial) (fun _ _ _ _ => rfl) trivial rfl trivial e).2
  rw [Fld.pow, powBy, m.one, m.powFrom, ← hpow]
  rfl

theorem isZeroElem_iff {f : Fld} {a : Elem} (h : a.length = f.degree) : isZeroElem a = true ↔ a = f.zero := by
  rw [Fld.zero, ← h, List.eq_replicate_iff]
  simp [isZeroElem]

@[simp] theorem Fld.Model.isZero (x : R) : isZeroElem (m.val x) = true ↔ x = 0 := by
  rw [isZeroElem_iff (m.length x), m.zero, m.val_inj]

theorem Fld.Model.isZero_eq (x : R) [Decidable (x = 0)] : isZeroElem (m.val x) = decide (x = 0) := by
  rw [Bool.eq_iff_iff, m.isZero, decide_eq_true_iff]

theorem Fld.Model.hasInverse (x : R) : f.HasInverse (m.val x) ↔ IsUnit x := by
  constructor
  · rintro ⟨v, hv, hone⟩
    obtain ⟨y, rfl⟩ := m.exists_of_ok hv
    rw [m.mul, m.one, m.val_inj] at hone
    exact IsUnit.of_mul_eq_one y hone
  · intro h
    obtain ⟨y, hy⟩ := isUnit_iff_exists_inv.mp h
    exact ⟨m.val y, m.ok y, by rw [m.mul, hy, m.one]⟩

end

/-! ### Settling the obligation -/

section
variable {R : Type} [CommRing R] {b : Fld} (m : b.Model R)

theorem Fld.Model.embed_quad (x : R) (β g : Elem) : (Fld.quad b β g).embed (m.val x) = m.val x ++ m.val 0 := by
  rw [Fld.embed_quad b β g (by simp), Fld.embed_of_length (m.length x), m.zero]

theorem Fld.Model.embed_cubic (x : R) (β g1 g2 : Elem) :
    (Fld.cubic b β g1 g2).embed (m.val x) = m.val x ++ (m.val 0 ++ m.val 0) := by
  rw [Fld.embed_cubic b β g1 g2 (by simp), Fld.embed_of_length (m.length x), m.zero]

theorem Fld.Model.quad_add (β g : Elem) (a0 a1 b0 b1 : R) :
    (Fld.quad b β g).add (m.val a0 ++ m.val a1) (m.val b0 ++ m.val b1) = m.val (a0 + b0) ++ m.val (a1 + b1) := by
  rw [Fld.add_quad _ _ (by simp), m.add, m.add]

theorem Fld.Model.cubic_add (β g1 g2 : Elem) (a0 a1 a2 b0 b1 b2 : R) :
    (Fld.cubic b β g1 g2).add (m.val a0 ++ (m.val a1 ++ m.val a2)) (m.val b0 ++ (m.val b1 ++ m.val b2)) =
      m.val (a0 + b0) ++ (m.val (a1 + b1) ++ m.val (a2 + b2)) := by
  rw [Fld.add_cubic _ _ _ (by simp) (by simp), m.add, m.add, m.add]

end

/-- Settles O38: every law is the law of the ring that models the tier. -/
theorem tiersAreQuotientRings : Obligations.TiersAreQuotientRings := by
  intro f h
  obtain ⟨R, _, ⟨m⟩⟩ := Fld.exists_model h
  refine ⟨?_, fun a b ha hb => ?_, fun a b c ha hb hc => ?_, ?_, ?_⟩
  · rw [m.zero, m.one]
    exact ⟨m.ok 0, m.ok 1⟩
  · obtain ⟨x, rfl⟩ := m.exists_of_ok ha
    obtain ⟨y, rfl⟩ := m.exists_of_ok hb
    simp only [m.zero, m.one, m.add, m.sub, m.neg, m.mul, m.ok, m.val_inj, true_and]
    exact ⟨add_comm x y, mul_comm x y, add_zero x, mul_one x, add_neg_cancel x, sub_add_cancel x y⟩
  · obtain ⟨x, rfl⟩ := m.exists_of_ok ha
    obtain ⟨y, rfl⟩ := m.exists_of_ok hb
    obtain ⟨z, rfl⟩ := m.exists_of_ok hc
    simp only [m.add, m.mul, m.val_inj]
    exact ⟨add_assoc x y z, mul_assoc x y z, mul_add x y z⟩
  · rintro g β g1 rfl
    obtain ⟨hg, hβ, -⟩ := Fld.wf_quad.mp h
    obtain ⟨S, _, ⟨n⟩⟩ := Fld.exists_model hg
    obtain ⟨w, rfl⟩ := n.exists_of_ok hβ
    simp only [n.zero, n.one, n.embed_quad, n.quad_mul, n.append_inj, n.val_inj]
    refine ⟨by constructor <;> ring, fun u v hu hv => ?_⟩
    obtain ⟨x, rfl⟩ := n.exists_of_ok hu
    obtain ⟨y, rfl⟩ := n.exists_of_ok hv
    simp only [n.mul, n.add, n.embed_quad, n.quad_mul, n.quad_add, n.append_inj, n.val_inj, true_and]
    refine ⟨⟨?_, ?_⟩, ?_, ?_, ?_⟩ <;> ring
  · rintro g β g1 g2 rfl
    obtain ⟨hg, hβ, -⟩ := Fld.wf_cubic.mp h
    obtain ⟨S, _, ⟨n⟩⟩ := Fld.exists_model hg
    obtain ⟨w, rfl⟩ := n.exists_of_ok hβ
    simp only [n.zero, n.one, n.embed_cubic, n.cubic_mul, n.append_inj, n.val_inj]
    refine ⟨by refine ⟨?_, ?_, ?_⟩ <;> ring, fun u v w hu hv hw => ?_⟩
    obtain ⟨x, rfl⟩ := n.exists_of_ok hu
    obtain ⟨y, rfl⟩ := n.exists_of_ok hv
    obtain ⟨z, rfl⟩ := n.exists_of_ok hw
    simp only [n.mul, n.add, n.embed_cubic, n.cubic_mul, n.cubic_add, n.append_inj, n.val_inj, true_and]
    refine ⟨⟨?_, ?_, ?_⟩, ⟨?_, ?_⟩, ?_, ?_, ?_⟩ <;> ring

end Sys2Proof.Machine
end

section
/-! Inverses in a tier (R250, R258), the size of a tier, the tiers over a prime modulus that are fields, and the Frobenius
formula (R259). -/

namespace Sys2Proof.Machine

section
variable {R : Type} [CommRing R]

/-! ### Norms of the quadratic and the cubic extension -/

/-- The norm of `x + y*X` over the base. -/
def norm2 (w x y : R) : R := x * x - w * (y * y)

/-- The norm of `x + y*X + z*X^2` over the base. -/
def norm3 (w x y z : R) : R :=
  x * (x * x - w * (y * z)) + w * (z * (w * (z * z) - x * y) + y * (y * y - x * z))

/-- An element whose norm is a unit has an inverse: its conjugate over the norm. -/
theorem quad_mul_inverse {w x y n : R} (h : norm2 w x y * n = 1) :
    x * (x * n) + w * (y * (-y * n)) = 1 ∧ x * (-y * n) + y * (x * n) = 0 :=
  ⟨by rw [norm2] at h; linear_combination h, by ring⟩

/-- The norm of an element with an inverse is a unit, since the norm of a product is the product of the norms. -/
theorem isUnit_norm2 {w x y x' y' : R} (h0 : x * x' + w * (y * y') = 1) (h1 : x * y' + y * x' = 0) :
    IsUnit (norm2 w x y) := by
  refine IsUnit.of_mul_eq_one (norm2 w x' y') ?_
  calc norm2 w x y * norm2 w x' y' = norm2 w (x * x' + w * (y * y')) (x * y' + y * x') := by simp only [norm2]; ring
    _ = 1 := by rw [h0, h1, norm2]; ring

theorem cubic_mul_inverse {w x y z n : R} (h : norm3 w x y z * n = 1) :
    let u := (x * x - w * (y * z)) * n
    let v := (w * (z * z) - x * y) * n
    let t := (y * y - x * z) * n
    x * u + w * (y * t + z * v) = 1 ∧ x * v + y * u + w * (z * t) = 0 ∧ x * t + y * v + z * u = 0 :=
  ⟨by rw [norm3] at h; linear_combination h, by ring, by ring⟩

theorem isUnit_norm3 {w x y z x' y' z' : R} (h0 : x * x' + w * (y * z' + z * y') = 1)
    (h1 : x * y' + y * x' + w * (z * z') = 0) (h2 : x * z' + y * y' + z * x' = 0) : IsUnit (norm3 w x y z) := by
  refine IsUnit.of_mul_eq_one (norm3 w x' y' z') ?_
  calc norm3 w x y z * norm3 w x' y' z' =
        norm3 w (x * x' + w * (y * z' + z * y')) (x * y' + y * x' + w * (z * z')) (x * z' + y * y' + z * x') := by
        simp only [norm3]; ring
    _ = 1 := by rw [h0, h1, h2, norm3]; ring

/-- Over a field, the norm of a non-zero element vanishes only when `w` is a square. -/
theorem exists_sq_of_norm2 (hF : IsField R) {w x y : R} (h : norm2 w x y = 0) (hne : ¬(x = 0 ∧ y = 0)) :
    ∃ r, r ^ 2 = w := by
  let := hF.toField
  rw [norm2] at h
  have hy : y ≠ 0 := by
    rintro rfl
    exact hne ⟨by simpa using h, rfl⟩
  exact ⟨x / y, by field_simp; linear_combination h⟩

/-- Over a field, the norm of a non-zero element vanishes only when `w` is a cube: the element has a product with a linear
one that is linear again, and its norm vanishes too. -/
theorem exists_cube_of_norm3 (hF : IsField R) {w x y z : R} (h : norm3 w x y z = 0) (hne : ¬(x = 0 ∧ y = 0 ∧ z = 0)) :
    ∃ r, r ^ 3 = w := by
  let := hF.toField
  rw [norm3] at h
  by_cases hz : z = 0
  · subst hz
    have hy : y ≠ 0 := by
      rintro rfl
      exact hne ⟨by simpa using h, rfl, rfl⟩
    exact ⟨-x / y, by field_simp; linear_combination -h⟩
  · have hlin : (w * z ^ 2 - x * y) ^ 3 + w * (x * z - y ^ 2) ^ 3 = 0 := by
      linear_combination (w * z ^ 3 - y ^ 3) * h
    generalize hp : w * z ^ 2 - x * y = p at hlin
    generalize hq : x * z - y ^ 2 = q at hlin
    by_cases hq0 : q = 0
    · have hp0 : p = 0 := by simpa [hq0] using hlin
      rw [hq0] at hq
      rw [hp0] at hp
      exact ⟨y / z, by field_simp; linear_combination -z * hp - y * hq⟩
    · exact ⟨-p / q, by field_simp; linear_combination -hlin⟩

end

/-! ### The inverse of a tier (R258) -/

/-- What an inverse operation answers: an element with product 1, or nothing where no element has one. -/
def Fld.InvAnswers (f : Fld) (a : Elem) (o : Option Elem) : Prop :=
  match o with
  | some v => f.elemOk v = true ∧ f.mul a v = f.one
  | none => ¬ f.HasInverse a

theorem Fld.inv_prime {p : Nat} (hp : 1 < p) {a : Elem} (ha : (Fld.prime p).elemOk a = true) :
    (Fld.prime p).InvAnswers a ((Fld.prime p).inv a) := by
  obtain ⟨n, rfl⟩ := List.length_eq_one_iff.mp (Fld.elemOk_iff.mp ha).1
  simp only [Fld.inv, List.headD_cons]
  cases hv : modInv p n with
  | some v =>
    obtain ⟨hlt, hone⟩ := (modInv_eq_some hp).mp hv
    refine ⟨Fld.elemOk_iff.mpr ⟨rfl, by simpa [Fld.char] using hlt⟩, ?_⟩
    simp [Fld.mul, Fld.one, Fld.embed, Fld.degree, Fld.char, Nat.mul_comm n v, hone, Nat.mod_eq_of_lt hp]
  | none =>
    rintro ⟨u, hu, hone⟩
    obtain ⟨k, rfl⟩ := List.length_eq_one_iff.mp (Fld.elemOk_iff.mp hu).1
    have hk : k < p := (Fld.elemOk_iff.mp hu).2 k (by simp)
    have hsome : modInv p n = some k := (modInv_eq_some hp).mpr ⟨hk, by
      simpa [Fld.mul, Fld.one, Fld.embed, Fld.degree, Fld.char, Nat.mul_comm n k, Nat.mod_eq_of_lt hp] using hone⟩
    rw [hv] at hsome
    cases hsome

section
variable {R : Type} [CommRing R] {b : Fld} (m : b.Model R)

theorem Fld.Model.quad_one (β g : Elem) : (Fld.quad b β g).one = m.val 1 ++ m.val 0 := by
  rw [Fld.one_quad, m.one, m.zero]

theorem Fld.Model.cubic_one (β g1 g2 : Elem) : (Fld.cubic b β g1 g2).one = m.val 1 ++ (m.val 0 ++ m.val 0) := by
  rw [Fld.one_cubic, m.one, m.zero]

theorem Fld.Model.quad_hasInverse {w x y : R} {g : Elem} :
    (Fld.quad b (m.val w) g).HasInverse (m.val x ++ m.val y) ↔ IsUnit (norm2 w x y) := by
  constructor
  · rintro ⟨v, hv, hone⟩
    obtain ⟨u', v', rfl, hu', hv'⟩ := Fld.exists_append_of_quad hv
    obtain ⟨x', rfl⟩ := m.exists_of_ok hu'
    obtain ⟨y', rfl⟩ := m.exists_of_ok hv'
    rw [m.quad_mul, m.quad_one, m.append_inj, m.val_inj] at hone
    exact isUnit_norm2 hone.1 hone.2
  · intro h
    obtain ⟨n, hn⟩ := isUnit_iff_exists_inv.mp h
    refine ⟨m.val (x * n) ++ m.val (-y * n), (Fld.elemOk_quad (m.length _)).mpr ⟨m.ok _, m.ok _⟩, ?_⟩
    rw [m.quad_mul, m.quad_one, m.append_inj, m.val_inj]
    exact quad_mul_inverse hn

theorem Fld.Model.cubic_hasInverse {w x y z : R} {g1 g2 : Elem} :
    (Fld.cubic b (m.val w) g1 g2).HasInverse (m.val x ++ (m.val y ++ m.val z)) ↔ IsUnit (norm3 w x y z) := by
  constructor
  · rintro ⟨v, hv, hone⟩
    obtain ⟨u', v', t', rfl, hu', hv', ht'⟩ := Fld.exists_append_of_cubic hv
    obtain ⟨x', rfl⟩ := m.exists_of_ok hu'
    obtain ⟨y', rfl⟩ := m.exists_of_ok hv'
    obtain ⟨z', rfl⟩ := m.exists_of_ok ht'
    rw [m.cubic_mul, m.cubic_one, m.append_inj, m.append_inj, m.val_inj] at hone
    obtain ⟨h0, h1, h2⟩ := hone
    exact isUnit_norm3 h0 h1 h2
  · intro h
    obtain ⟨n, hn⟩ := isUnit_iff_exists_inv.mp h
    refine ⟨m.val ((x * x - w * (y * z)) * n) ++ (m.val ((w * (z * z) - x * y) * n) ++ m.val ((y * y - x * z) * n)),
      (Fld.elemOk_cubic (m.length _) (m.length _)).mpr ⟨m.ok _, m.ok _, m.ok _⟩, ?_⟩
    rw [m.cubic_mul, m.cubic_one, m.append_inj, m.append_inj, m.val_inj]
    exact cubic_mul_inverse hn

theorem Fld.Model.invAnswers_none {x : R} (h : b.InvAnswers (m.val x) none) : ¬ IsUnit x := mt (m.hasInverse x).mpr h

theorem Fld.Model.invAnswers_some {x : R} {v : Elem} (h : b.InvAnswers (m.val x) (some v)) :
    ∃ n, m.val n = v ∧ x * n = 1 := by
  obtain ⟨hv, hone⟩ := h
  obtain ⟨n, rfl⟩ := m.exists_of_ok hv
  rw [m.mul, m.one, m.val_inj] at hone
  exact ⟨n, rfl, hone⟩

theorem Fld.Model.inv_quad (w x y : R) (g : Elem) :
    (Fld.quad b (m.val w) g).inv (m.val x ++ m.val y) =
      (b.inv (m.val (norm2 w x y))).map fun n => b.mul (m.val x) n ++ b.mul (m.val (-y)) n := by
  simp only [Fld.inv, coeff_append_zero, coeff_append_succ, coeff_self, m.length, m.mul, m.sub, m.neg, norm2]
  cases b.inv (m.val (x * x - w * (y * y))) <;> rfl

theorem Fld.Model.inv_cubic (w x y z : R) (g1 g2 : Elem) :
    (Fld.cubic b (m.val w) g1 g2).inv (m.val x ++ (m.val y ++ m.val z)) =
      (b.inv (m.val (norm3 w x y z))).map fun n => b.mul (m.val (x * x - w * (y * z))) n ++
        (b.mul (m.val (w * (z * z) - x * y)) n ++ b.mul (m.val (y * y - x * z)) n) := by
  simp only [Fld.inv, coeff_append_zero, coeff_append_succ, coeff_self, m.length, m.mul, m.sub, m.add, norm3]
  cases b.inv (m.val (x * (x * x - w * (y * z)) + w * (z * (w * (z * z) - x * y) + y * (y * y - x * z)))) <;> rfl

end

/-- The inverse by the norm is right over every modulus above 1: it gives an element with product 1, and nothing exactly
where there is none (R250, R258). -/
theorem Fld.invAnswers {f : Fld} (h : f.wf = true) (hc : 1 < f.char) {a : Elem} (ha : f.elemOk a = true) :
    f.InvAnswers a (f.inv a) := by
  induction f generalizing a with
  | prime p => exact Fld.inv_prime hc ha
  | quad b β g ih =>
    obtain ⟨hb, hβ, -⟩ := Fld.wf_quad.mp h
    obtain ⟨R, _, ⟨m⟩⟩ := Fld.exists_model hb
    obtain ⟨w, rfl⟩ := m.exists_of_ok hβ
    obtain ⟨u, v, rfl, hu, hv⟩ := Fld.exists_append_of_quad ha
    obtain ⟨x, rfl⟩ := m.exists_of_ok hu
    obtain ⟨y, rfl⟩ := m.exists_of_ok hv
    have hnorm := ih hb hc (m.ok (norm2 w x y))
    rw [m.inv_quad]
    cases hinv : b.inv (m.val (norm2 w x y)) with
    | none =>
      rw [hinv] at hnorm
      exact mt m.quad_hasInverse.mp (m.invAnswers_none hnorm)
    | some n =>
      rw [hinv] at hnorm
      obtain ⟨n, rfl, hn⟩ := m.invAnswers_some hnorm
      simp only [Option.map_some, m.mul]
      refine ⟨(Fld.elemOk_quad (m.length _)).mpr ⟨m.ok _, m.ok _⟩, ?_⟩
      rw [m.quad_mul, m.quad_one, m.append_inj, m.val_inj]
      exact quad_mul_inverse hn
  | cubic b β g1 g2 ih =>
    obtain ⟨hb, hβ, -⟩ := Fld.wf_cubic.mp h
    obtain ⟨R, _, ⟨m⟩⟩ := Fld.exists_model hb
    obtain ⟨w, rfl⟩ := m.exists_of_ok hβ
    obtain ⟨u, v, t, rfl, hu, hv, ht⟩ := Fld.exists_append_of_cubic ha
    obtain ⟨x, rfl⟩ := m.exists_of_ok hu
    obtain ⟨y, rfl⟩ := m.exists_of_ok hv
    obtain ⟨z, rfl⟩ := m.exists_of_ok ht
    have hnorm := ih hb hc (m.ok (norm3 w x y z))
    rw [m.inv_cubic]
    cases hinv : b.inv (m.val (norm3 w x y z)) with
    | none =>
      rw [hinv] at hnorm
      exact mt m.cubic_hasInverse.mp (m.invAnswers_none hnorm)
    | some n =>
      rw [hinv] at hnorm
      obtain ⟨n, rfl, hn⟩ := m.invAnswers_some hnorm
      simp only [Option.map_some, m.mul]
      refine ⟨(Fld.elemOk_cubic (m.length _) (m.length _)).mpr ⟨m.ok _, m.ok _, m.ok _⟩, ?_⟩
      rw [m.cubic_mul, m.cubic_one, m.append_inj, m.append_inj, m.val_inj]
      exact cubic_mul_inverse hn

section
variable {R : Type} [CommRing R] {f : Fld} (m : f.Model R)

theorem Fld.Model.inv_eq_none (h : f.wf = true) (hc : 1 < f.char) {x : R} :
    f.inv (m.val x) = none ↔ ¬ IsUnit x := by
  have hspec := Fld.invAnswers h hc (m.ok x)
  constructor
  · intro hnone
    exact m.invAnswers_none (hnone ▸ hspec)
  · intro hunit
    cases hv : f.inv (m.val x) with
    | none => rfl
    | some v =>
      obtain ⟨y, -, hxy⟩ := m.invAnswers_some (hv ▸ hspec)
      exact absurd (IsUnit.of_mul_eq_one y hxy) hunit

/-! ### The size of a tier -/

theorem Fld.Model.bijective_coords :
    Function.Bijective fun (x : R) (i : Fin f.degree) =>
      (⟨(m.val x)[i.val]'(by simp), (Fld.elemOk_iff.mp (m.ok x)).2 _ (List.getElem_mem _)⟩ : Fin f.char) := by
  constructor
  · intro x y h
    refine m.inj (List.ext_getElem (by simp) fun i h1 h2 => ?_)
    exact congrArg Fin.val (congrFun h ⟨i, by simpa using h1⟩)
  · intro g
    obtain ⟨x, hx⟩ := m.exists_of_ok (a := List.ofFn fun i => (g i).val)
      (Fld.elemOk_iff.mpr ⟨by simp, by simp⟩)
    exact ⟨x, by ext i; simp [hx]⟩

include m in
theorem Fld.Model.card : Nat.card R = f.char ^ f.degree := by
  rw [Nat.card_eq_of_bijective _ m.bijective_coords]
  simp

theorem Fld.char_pos_of_wf {f : Fld} (h : f.wf = true) : 0 < f.char := by
  induction f with
  | prime p => exact of_decide_eq_true h
  | quad b β g ih => exact ih (Fld.wf_quad.mp h).1
  | cubic b β g1 g2 ih => exact ih (Fld.wf_cubic.mp h).1

include m in
theorem Fld.Model.finite (h : f.wf = true) : Finite R := by
  have : NeZero f.char := ⟨(Fld.char_pos_of_wf h).ne'⟩
  exact Finite.of_injective _ m.bijective_coords.1

include m in
theorem Fld.Model.nontrivial (hc : 1 < f.char) : Nontrivial R := by
  refine ⟨0, 1, fun h => ?_⟩
  have heq : f.zero = f.one := by rw [m.zero, m.one, h]
  have hhead := congrArg (·.headD 0) heq
  obtain ⟨k, hk⟩ : ∃ k, f.degree = k + 1 := ⟨f.degree - 1, by have := f.degree_pos; omega⟩
  simp [Fld.zero, Fld.one, Fld.embed, hk, List.replicate_succ, Nat.mod_eq_of_lt hc] at hhead

/-- The numbers of the ring are the constants of the tier. -/
theorem Fld.Model.natCast (n : Nat) : m.val (n : R) = f.embed [n % f.char] := by
  induction n with
  | zero =>
    rw [Nat.cast_zero, ← m.zero, Fld.zero, Fld.embed, Nat.zero_mod, ← List.replicate_one,
      List.replicate_append_replicate, List.length_replicate, Nat.add_sub_cancel' f.degree_pos]
  | succ n ih =>
    rw [Nat.cast_succ, ← m.add, ih, ← m.one, Fld.one]
    simp [Fld.embed, Fld.add]

include m in
theorem Fld.Model.natCast_char : ((f.char : Nat) : R) = 0 := by
  have h0 := m.natCast 0
  have hp := m.natCast f.char
  rw [Nat.mod_self] at hp
  rw [Nat.zero_mod, ← hp] at h0
  exact (m.inj h0).symm.trans Nat.cast_zero

end

/-! ### Tiers over a prime modulus (R242, R250) -/

/-- Every level passed the non-residue check of its definition (R242). -/
def Fld.verified : Fld → Prop
  | .prime _ => True
  | .quad b β _ => b.verified ∧ isNonResidue b .quadratic β = true
  | .cubic b β _ _ => b.verified ∧ isNonResidue b .cubic β = true

section
variable {R : Type} [CommRing R] {f : Fld} (m : f.Model R)

theorem Fld.Model.isNonResidue_iff (d : Degree) (w : R) : isNonResidue f d (m.val w) = true ↔
    w ≠ 0 ∧ degreeNat d ∣ f.char ^ f.degree - 1 ∧ w ^ ((f.char ^ f.degree - 1) / degreeNat d) ≠ 1 := by
  simp only [isNonResidue, Bool.and_eq_true, Bool.not_eq_true', bne_iff_ne, beq_iff_eq, m.pow, m.one, Ne, m.val_inj,
    ← Nat.dvd_iff_mod_eq_zero, ← Bool.not_eq_true, m.isZero, and_assoc]

theorem pow_card_sub_one {R : Type} [CommRing R] [Finite R] (hF : IsField R) {x : R} (hx : x ≠ 0) :
    x ^ (Nat.card R - 1) = 1 := by
  let := hF.toField
  have := Fintype.ofFinite R
  rw [Nat.card_eq_fintype_card]
  exact FiniteField.pow_card_sub_one_eq_one x hx

/-- A non-residue of degree d is no d-th power in a field. -/
theorem Fld.Model.ne_pow_of_isNonResidue (hf : f.wf = true) (hF : IsField R) {d : Degree} {w : R}
    (h : isNonResidue f d (m.val w) = true) (r : R) : r ^ degreeNat d ≠ w := by
  rintro rfl
  obtain ⟨h0, hdvd, hne⟩ := (m.isNonResidue_iff d _).mp h
  have := m.finite hf
  refine hne ?_
  rw [← pow_mul, Nat.mul_div_cancel' hdvd, ← m.card]
  refine pow_card_sub_one hF fun hr => h0 ?_
  rw [hr]
  cases d <;> simp [degreeNat]

include m in
theorem Fld.Model.isField (hc : 1 < f.char) (h : ∀ a, f.elemOk a = true → a ≠ f.zero → f.HasInverse a) : IsField R where
  exists_pair_ne := (m.nontrivial hc).exists_pair_ne
  mul_comm := mul_comm
  mul_inv_cancel := fun {x} hx => isUnit_iff_exists_inv.mp <|
    (m.hasInverse x).mp (h _ (m.ok x) (by rwa [m.zero, Ne, m.val_inj]))

end

theorem IsField.isUnit {R : Type} [CommRing R] (hF : IsField R) {x : R} (hx : x ≠ 0) : IsUnit x :=
  isUnit_iff_exists_inv.mpr (hF.mul_inv_cancel hx)

/-- Over a prime modulus every non-zero element of a verified tower has an inverse (R250). -/
theorem Fld.hasInverse_of_ne_zero {f : Fld} (h : f.wf = true) (hp : f.char.Prime) (hv : f.verified) {a : Elem}
    (ha : f.elemOk a = true) (hne : a ≠ f.zero) : f.HasInverse a := by
  induction f generalizing a with
  | prime p =>
    have : Fact p.Prime := ⟨hp⟩
    have m := Fld.primeModel p hp.pos
    obtain ⟨x, rfl⟩ := m.exists_of_ok ha
    rw [m.zero, Ne, m.val_inj] at hne
    exact (m.hasInverse x).mpr (isUnit_iff_ne_zero.mpr hne)
  | quad b β g ih =>
    obtain ⟨hb, hβ, -⟩ := Fld.wf_quad.mp h
    obtain ⟨hvb, hres⟩ := hv
    obtain ⟨R, _, ⟨m⟩⟩ := Fld.exists_model hb
    have hF := m.isField hp.one_lt fun u hu h0 => ih hb hp hvb hu h0
    obtain ⟨w, rfl⟩ := m.exists_of_ok hβ
    obtain ⟨u, v, rfl, hu, hv⟩ := Fld.exists_append_of_quad ha
    obtain ⟨x, rfl⟩ := m.exists_of_ok hu
    obtain ⟨y, rfl⟩ := m.exists_of_ok hv
    rw [Fld.zero_quad, m.zero, Ne, m.append_inj, m.val_inj] at hne
    refine m.quad_hasInverse.mpr (IsField.isUnit hF fun hzero => ?_)
    obtain ⟨r, hr⟩ := exists_sq_of_norm2 hF hzero hne
    exact m.ne_pow_of_isNonResidue hb hF hres r hr
  | cubic b β g1 g2 ih =>
    obtain ⟨hb, hβ, -⟩ := Fld.wf_cubic.mp h
    obtain ⟨hvb, hres⟩ := hv
    obtain ⟨R, _, ⟨m⟩⟩ := Fld.exists_model hb
    have hF := m.isField hp.one_lt fun u hu h0 => ih hb hp hvb hu h0
    obtain ⟨w, rfl⟩ := m.exists_of_ok hβ
    obtain ⟨u, v, t, rfl, hu, hv, ht⟩ := Fld.exists_append_of_cubic ha
    obtain ⟨x, rfl⟩ := m.exists_of_ok hu
    obtain ⟨y, rfl⟩ := m.exists_of_ok hv
    obtain ⟨z, rfl⟩ := m.exists_of_ok ht
    rw [Fld.zero_cubic, m.zero, Ne, m.append_inj, m.append_inj, m.val_inj] at hne
    refine m.cubic_hasInverse.mpr (IsField.isUnit hF fun hzero => ?_)
    obtain ⟨r, hr⟩ := exists_cube_of_norm3 hF hzero hne
    exact m.ne_pow_of_isNonResidue hb hF hres r hr

end Sys2Proof.Machine
end

section
/-! The Frobenius formula (R259): the p-th power, when the coefficients are the right ones. -/

namespace Sys2Proof.Machine

/-! ### p-th powers in the extensions of a ring of characteristic p -/

section
variable {R : Type} [CommRing R]

/-- The p-th power in `R[x]/(x^2 - w)`, with p = 2k + 1. -/
theorem quad_pow_char {p k : Nat} [Fact p.Prime] [CharP R p] (hk : p = 2 * k + 1) (w x y : R) :
    (⟨x, y⟩ : QuadraticAlgebra R w 0) ^ p = ⟨x ^ p, y ^ p * w ^ k⟩ := by
  have hchar : CharP (QuadraticAlgebra R w 0) p := charP_of_injective_algebraMap QuadraticAlgebra.algebraMap_injective p
  have hC : ∀ (r : R) (n : Nat), (⟨r, 0⟩ : QuadraticAlgebra R w 0) ^ n = ⟨r ^ n, 0⟩ := fun r n =>
    (map_pow (algebraMap R (QuadraticAlgebra R w 0)) r n).symm
  have hsq : (⟨0, 1⟩ : QuadraticAlgebra R w 0) ^ 2 = ⟨w, 0⟩ := by
    rw [pow_two]
    ext <;> simp
  have hX : (⟨0, 1⟩ : QuadraticAlgebra R w 0) ^ p = ⟨0, w ^ k⟩ := by
    rw [hk, pow_succ, pow_mul, hsq, hC]
    ext <;> simp
  have hsplit : (⟨x, y⟩ : QuadraticAlgebra R w 0) = ⟨x, 0⟩ + ⟨y, 0⟩ * ⟨0, 1⟩ := by ext <;> simp
  rw [hsplit, add_pow_char _ _ p, mul_pow, hC, hC, hX]
  ext <;> simp

/-- The p-th power in `R[x]/(x^3 - w)`, with p = 3k + 1. -/
theorem cubic_pow_char {p k : Nat} [Fact p.Prime] [CharP R p] (hk : p = 3 * k + 1) (w x y z : R) :
    letI := CubicExt.commRing w
    (⟨x, y, z⟩ : CubicExt R) ^ p = ⟨x ^ p, y ^ p * w ^ k, z ^ p * w ^ (2 * k)⟩ := by
  let := CubicExt.commRing w
  have hmul : ∀ a b : CubicExt R, a * b = CubicExt.times w a b := fun _ _ => rfl
  have hadd : ∀ a b : CubicExt R, a + b = ⟨a.c0 + b.c0, a.c1 + b.c1, a.c2 + b.c2⟩ := fun _ _ => rfl
  have hone : (1 : CubicExt R) = ⟨1, 0, 0⟩ := rfl
  let C : R →+* CubicExt R :=
    { toFun := fun r => ⟨r, 0, 0⟩
      map_one' := rfl
      map_mul' := fun r s => by rw [hmul]; ext <;> simp only [CubicExt.times] <;> ring
      map_zero' := rfl
      map_add' := fun r s => by rw [hadd]; ext <;> simp }
  have hCinj : Function.Injective C := fun r s h => congrArg CubicExt.c0 h
  have hchar : CharP (CubicExt R) p := charP_of_injective_ringHom hCinj p
  have hC : ∀ (r : R) (n : Nat), (⟨r, 0, 0⟩ : CubicExt R) ^ n = ⟨r ^ n, 0, 0⟩ := fun r n => (map_pow C r n).symm
  have hcube : (⟨0, 1, 0⟩ : CubicExt R) ^ 3 = ⟨w, 0, 0⟩ := by
    rw [pow_succ, pow_two, hmul, hmul]
    ext <;> simp only [CubicExt.times] <;> ring
  have hX : (⟨0, 1, 0⟩ : CubicExt R) ^ p = ⟨0, w ^ k, 0⟩ := by
    rw [hk, pow_succ, pow_mul, hcube, hC, hmul]
    ext <;> simp only [CubicExt.times] <;> ring
  have hX2 : (⟨0, 0, 1⟩ : CubicExt R) ^ p = ⟨0, 0, w ^ (2 * k)⟩ := by
    have hsq : (⟨0, 0, 1⟩ : CubicExt R) = ⟨0, 1, 0⟩ * ⟨0, 1, 0⟩ := by
      rw [hmul]
      ext <;> simp only [CubicExt.times] <;> ring
    rw [hsq, mul_pow, hX, hmul]
    ext <;> simp only [CubicExt.times] <;> ring
  have hsplit : (⟨x, y, z⟩ : CubicExt R) = ⟨x, 0, 0⟩ + (⟨y, 0, 0⟩ * ⟨0, 1, 0⟩ + ⟨z, 0, 0⟩ * ⟨0, 0, 1⟩) := by
    simp only [hmul, hadd]
    ext <;> simp only [CubicExt.times] <;> ring
  rw [hsplit, add_pow_char _ _ p, add_pow_char _ _ p, mul_pow, mul_pow, hC, hC, hC, hX, hX2]
  simp only [hmul, hadd]
  ext <;> simp only [CubicExt.times] <;> ring

end

/-! ### The Frobenius formula -/

section
variable {R : Type} [CommRing R] {b : Fld} (m : b.Model R)

include m in
theorem Fld.Model.charP (hp : b.char.Prime) : CharP R b.char := by
  have := m.nontrivial hp.one_lt
  exact (CharP.charP_iff_prime_eq_zero hp).mpr m.natCast_char

theorem Fld.frob_quad (β g : Elem) {u v : Elem} (hu : u.length = b.degree) (hv : v.length = b.degree) :
    (Fld.quad b β g).frob (u ++ v) = b.frob u ++ b.mul (b.frob v) g := by
  simp only [Fld.frob, coeff_append_zero hu, coeff_append_succ hu, coeff_self hv]

theorem Fld.frob_cubic (β g1 g2 : Elem) {u v w : Elem} (hu : u.length = b.degree) (hv : v.length = b.degree)
    (hw : w.length = b.degree) :
    (Fld.cubic b β g1 g2).frob (u ++ (v ++ w)) = b.frob u ++ (b.mul (b.frob v) g1 ++ b.mul (b.frob w) g2) := by
  simp only [Fld.frob, coeff_append_zero hu, coeff_append_zero hv, coeff_append_succ hu, coeff_append_succ hv,
    coeff_self hw]

end

/-- The Frobenius formula stays in the tier, whatever the coefficients. -/
theorem Fld.frob_ok {f : Fld} (h : f.wf = true) {a : Elem} (ha : f.elemOk a = true) : f.elemOk (f.frob a) = true := by
  induction f generalizing a with
  | prime p => exact ha
  | quad b β g ih =>
    obtain ⟨hb, -, hg⟩ := Fld.wf_quad.mp h
    obtain ⟨R, _, ⟨m⟩⟩ := Fld.exists_model hb
    obtain ⟨u, v, rfl, hu, hv⟩ := Fld.exists_append_of_quad ha
    rw [Fld.frob_quad β g (Fld.elemOk_iff.mp hu).1 (Fld.elemOk_iff.mp hv).1]
    obtain ⟨x, hx⟩ := m.exists_of_ok (ih hb hu)
    obtain ⟨y, hy⟩ := m.exists_of_ok (ih hb hv)
    obtain ⟨c, rfl⟩ := m.exists_of_ok hg
    rw [← hx, ← hy, m.mul]
    exact (Fld.elemOk_quad (m.length _)).mpr ⟨m.ok _, m.ok _⟩
  | cubic b β g1 g2 ih =>
    obtain ⟨hb, -, hg1, hg2⟩ := Fld.wf_cubic.mp h
    obtain ⟨R, _, ⟨m⟩⟩ := Fld.exists_model hb
    obtain ⟨u, v, w, rfl, hu, hv, hw⟩ := Fld.exists_append_of_cubic ha
    rw [Fld.frob_cubic β g1 g2 (Fld.elemOk_iff.mp hu).1 (Fld.elemOk_iff.mp hv).1 (Fld.elemOk_iff.mp hw).1]
    obtain ⟨x, hx⟩ := m.exists_of_ok (ih hb hu)
    obtain ⟨y, hy⟩ := m.exists_of_ok (ih hb hv)
    obtain ⟨z, hz⟩ := m.exists_of_ok (ih hb hw)
    obtain ⟨c, rfl⟩ := m.exists_of_ok hg1
    obtain ⟨d, rfl⟩ := m.exists_of_ok hg2
    rw [← hx, ← hy, ← hz, m.mul, m.mul]
    exact (Fld.elemOk_cubic (m.length _) (m.length _)).mpr ⟨m.ok _, m.ok _, m.ok _⟩

theorem Fld.frobs_eq (f : Fld) (j : Nat) (a : Elem) : f.frobs j a = f.frob^[j] a := by
  induction j generalizing a with
  | zero => rfl
  | succ j ih => rw [Fld.frobs, ih, Function.iterate_succ_apply]

/-- Settles O42, by induction on the levels: over the base the formula is the p-th power, and the coefficients are the powers
of beta that the p-th power of x brings. -/
theorem frobeniusIsThePthPower : Obligations.FrobeniusIsThePthPower := by
  intro f h hp hconst a ha
  induction f generalizing a with
  | prime p =>
    have : Fact p.Prime := ⟨hp⟩
    have m := Fld.primeModel p hp.pos
    obtain ⟨x, rfl⟩ := m.exists_of_ok ha
    rw [m.prodOf]
    exact congrArg m.val (ZMod.pow_card x).symm
  | quad b β g ih =>
    obtain ⟨hb, hβ, -⟩ := Fld.wf_quad.mp h
    obtain ⟨hcb, hdiv, hg⟩ := hconst
    obtain ⟨R, _, ⟨m⟩⟩ := Fld.exists_model hb
    have : Fact b.char.Prime := ⟨hp⟩
    have := m.charP hp
    have hpos : 1 < b.char := hp.one_lt
    obtain ⟨w, rfl⟩ := m.exists_of_ok hβ
    obtain ⟨u, v, rfl, hu, hv⟩ := Fld.exists_append_of_quad ha
    obtain ⟨x, rfl⟩ := m.exists_of_ok hu
    obtain ⟨y, rfl⟩ := m.exists_of_ok hv
    rw [Fld.frob_quad _ _ (m.length _) (m.length _), ih hb hp hcb _ hu, ih hb hp hcb _ hv, m.prodOf, m.prodOf, hg, m.pow,
      m.mul]
    exact (congrArg (m.quad w g).val (quad_pow_char (p := b.char) (by omega) w x y)).symm.trans ((m.quad w g).prodOf b.char _).symm
  | cubic b β g1 g2 ih =>
    obtain ⟨hb, hβ, -⟩ := Fld.wf_cubic.mp h
    obtain ⟨hcb, hdiv, hg1, hg2⟩ := hconst
    obtain ⟨R, _, ⟨m⟩⟩ := Fld.exists_model hb
    have : Fact b.char.Prime := ⟨hp⟩
    have := m.charP hp
    have hpos : 1 < b.char := hp.one_lt
    obtain ⟨w, rfl⟩ := m.exists_of_ok hβ
    obtain ⟨u, v, t, rfl, hu, hv, ht⟩ := Fld.exists_append_of_cubic ha
    obtain ⟨x, rfl⟩ := m.exists_of_ok hu
    obtain ⟨y, rfl⟩ := m.exists_of_ok hv
    obtain ⟨z, rfl⟩ := m.exists_of_ok ht
    rw [Fld.frob_cubic _ _ _ (m.length _) (m.length _) (m.length _), ih hb hp hcb _ hu, ih hb hp hcb _ hv,
      ih hb hp hcb _ ht, m.prodOf, m.prodOf, m.prodOf, hg1, hg2, m.pow, m.pow, m.mul, m.mul]
    let := CubicExt.commRing w
    exact (congrArg (m.cubic w g1 g2).val (cubic_pow_char (p := b.char) (by omega) w x y z)).symm.trans
      ((m.cubic w g1 g2).prodOf b.char _).symm

end Sys2Proof.Machine
end

section
/-! Valid tiers of a sound state: their arithmetic is sound, their elements in registers are elements, and what a command
over a tier checks and leaves (R32, R111, R241, R358). -/

namespace Sys2Proof.Machine

variable {s t : State} {f : FieldView}

/-! ### The chain of bases -/

/-- The extension of a base that a tower entry describes (R240). -/
def Twr.fldOver (e : Twr) (b : Fld) : Fld :=
  match e.deg with
  | .quadratic => .quad b e.beta (e.gamma.getD 0 [])
  | .cubic => .cubic b e.beta (e.gamma.getD 0 []) (e.gamma.getD 1 [])

theorem State.resolve_tower {n : Nat} {x : TwrIx} {e : Twr} (he : s.twrAt x = some e) :
    s.resolve (n + 1) (.tower x) = (s.resolve n e.base).map e.fldOver := by
  simp only [State.resolve, he]
  cases s.resolve n e.base with
  | none => rfl
  | some b =>
    simp only [Option.map_some, Twr.fldOver]
    cases e.deg <;> rfl

theorem State.resolve_succ {n : Nat} : ∀ {x : Tier} {g : Fld}, s.resolve n x = some g → s.resolve (n + 1) x = some g := by
  induction n with
  | zero => intro x g h; cases x <;> cases h
  | succ n ih =>
    intro x g h
    cases x with
    | prime c => exact h
    | tower x =>
      cases he : s.twrAt x with
      | none => simp [State.resolve, he] at h
      | some e =>
        rw [State.resolve_tower he, Option.map_eq_some_iff] at h ⊢
        obtain ⟨b, hb, hg⟩ := h
        exact ⟨b, ih hb, hg⟩

theorem State.resolve_mono {n k : Nat} (hnk : n ≤ k) {x : Tier} {g : Fld} (h : s.resolve n x = some g) :
    s.resolve k x = some g := by
  induction hnk with
  | refl => exact h
  | step _ ih => exact State.resolve_succ ih

theorem State.fieldOf_eq_some_tower {x : TwrIx} : s.fieldOf (.tower x) = some f ↔
    ∃ e cx g, s.twrAt x = some e ∧ s.ctxAt e.root = some cx ∧ s.resolve 9 (.tower x) = some g ∧
      f = { root := e.root, ctx := cx, k := e.k, fld := g } := by
  simp only [State.fieldOf]
  constructor
  · intro h
    split at h
    · cases h
    next e he =>
      split at h
      · cases h
      next cx hcx =>
        split at h
        · cases h
        next g hg =>
          cases h
          exact ⟨e, cx, g, he, hcx, hg, rfl⟩
  · rintro ⟨e, cx, g, he, hcx, hg, rfl⟩
    simp only [he, hcx, hg]

theorem State.fieldOf_eq_some_prime {c : CtxIx} : s.fieldOf (.prime c) = some f ↔
    ∃ e, s.ctxAt c = some e ∧ f = primeView c e := by
  simp only [State.fieldOf, Option.map_eq_some_iff]
  exact exists_congr fun e => and_congr_right fun _ => eq_comm

theorem State.resolve_of_fieldOf {x : Tier} (h : s.fieldOf x = some f) : s.resolve 9 x = some f.fld := by
  cases x with
  | prime c =>
    obtain ⟨e, he, rfl⟩ := State.fieldOf_eq_some_prime.mp h
    simp [State.resolve, he, primeView]
  | tower x =>
    obtain ⟨e, cx, g, -, -, hg, rfl⟩ := State.fieldOf_eq_some_tower.mp h
    exact hg

theorem State.validTowers_le (s : State) : s.validTowers ≤ 8 :=
  List.countP_le_length.trans (by simp)

/-! ### Sound tiers -/

/-- What a sound tower entry says of its base. -/
structure TowerOver (e : Twr) (b : FieldView) : Prop where
  root : e.root = b.root
  degree : e.k = degreeNat e.deg * b.k
  beta : b.fld.elemOk e.beta = true
  length : e.gamma.length = degreeNat e.deg - 1
  gamma : ∀ g ∈ e.gamma, b.fld.elemOk g = true
  nonResidue : isNonResidue b.fld e.deg e.beta = true

theorem State.towerSound_iff {e : Twr} : s.towerSound e = true ↔ ∃ b, s.fieldOf e.base = some b ∧ TowerOver e b := by
  rw [State.towerSound]
  cases s.fieldOf e.base with
  | none => simp
  | some b =>
    simp only [Bool.and_eq_true, decide_eq_true_eq, List.all_eq_true, Option.some.injEq, exists_eq_left']
    exact ⟨fun ⟨⟨⟨⟨⟨h1, h2⟩, h3⟩, h4⟩, h5⟩, h6⟩ => ⟨h1, h2, h3, h4, h5, h6⟩,
      fun ⟨h1, h2, h3, h4, h5, h6⟩ => ⟨⟨⟨⟨⟨h1, h2⟩, h3⟩, h4⟩, h5⟩, h6⟩⟩

/-- Every valid tower level is a valid tier, the extension of its valid base (R32). -/
theorem State.Inv.tower_field (h : s.Inv) {x : TwrIx} {e : Twr} (he : s.twrAt x = some e) :
    ∃ b, s.fieldOf e.base = some b ∧ TowerOver e b ∧
      s.fieldOf (.tower x) = some { root := b.root, ctx := b.ctx, k := degreeNat e.deg * b.k, fld := e.fldOver b.fld } := by
  have hsound := h.twr x
  simp only [State.towerLevelSound, he, Bool.and_eq_true, State.towerSound_iff, Option.isSome_iff_exists] at hsound
  obtain ⟨⟨b, hb, hover⟩, g, hg⟩ := hsound
  have hg9 : s.resolve 9 (.tower x) = some g := State.resolve_mono (by have := s.validTowers_le; omega) hg
  have hfld : g = e.fldOver b.fld := by
    rw [State.resolve_tower he, Option.map_eq_some_iff] at hg9
    obtain ⟨b', hb', rfl⟩ := hg9
    rw [State.resolve_of_fieldOf hb |>.symm.trans (State.resolve_succ hb') |> Option.some.inj]
  exact ⟨b, hb, hover, State.fieldOf_eq_some_tower.mpr
    ⟨e, b.ctx, g, he, hover.root ▸ State.fieldOf_root hb, hg9, by rw [hfld, hover.root, hover.degree]⟩⟩

/-- A tier whose arithmetic fits its registers. -/
structure FieldView.Sound (f : FieldView) : Prop where
  wf : f.fld.wf = true
  degree : f.fld.degree = f.k
  char : f.fld.char = f.ctx.m
  verified : f.fld.verified

theorem TowerOver.getD_ok {e : Twr} {b : FieldView} (h : TowerOver e b) {i : Nat} (hi : i + 1 < degreeNat e.deg) :
    b.fld.elemOk (e.gamma.getD i []) = true := by
  have hlt : i < e.gamma.length := by rw [h.length]; omega
  rw [List.getD_eq_getElem _ _ hlt]
  exact h.gamma _ (List.getElem_mem hlt)

theorem TowerOver.sound {e : Twr} {b : FieldView} (h : TowerOver e b) (hb : b.Sound) {r : CtxIx} :
    FieldView.Sound { root := r, ctx := b.ctx, k := degreeNat e.deg * b.k, fld := e.fldOver b.fld } := by
  have hres := h.nonResidue
  have hgamma (i : Nat) (hi : i + 1 < degreeNat e.deg) := h.getD_ok hi
  cases hd : e.deg <;> simp only [hd] at hres hgamma <;> simp only [Twr.fldOver, hd]
  case quadratic =>
    exact ⟨Fld.wf_quad.mpr ⟨hb.wf, h.beta, hgamma 0 (by decide)⟩, congrArg (2 * ·) hb.degree, hb.char, hb.verified, hres⟩
  case cubic =>
    exact ⟨Fld.wf_cubic.mpr ⟨hb.wf, h.beta, hgamma 0 (by decide), hgamma 1 (by decide)⟩, congrArg (3 * ·) hb.degree,
      hb.char, hb.verified, hres⟩

theorem primeView_sound {c : CtxIx} {e : Ctx} (h : 0 < e.m) : (primeView c e).Sound :=
  ⟨decide_eq_true h, rfl, rfl, trivial⟩

/-- Every valid tier of a sound state is sound (R32, R242). -/
theorem State.Inv.field_sound (h : s.Inv) {x : Tier} (hf : s.fieldOf x = some f) : f.Sound := by
  have hind : ∀ n x g, s.resolve n x = some g → ∀ f, s.fieldOf x = some f → f.Sound := by
    intro n
    induction n with
    | zero => intro x g hg; cases x <;> cases hg
    | succ n ih =>
      intro x g hg f hf
      cases x with
      | prime c =>
        obtain ⟨e, he, rfl⟩ := State.fieldOf_eq_some_prime.mp hf
        exact primeView_sound (Ctx.admitted_pos (Ctx.sound_admitted (h.ctx_sound he)))
      | tower x =>
        obtain ⟨e, -, -, he, -, -, -⟩ := State.fieldOf_eq_some_tower.mp hf
        obtain ⟨b, hb, hover, hx⟩ := h.tower_field he
        rw [State.resolve_tower he, Option.map_eq_some_iff] at hg
        obtain ⟨g', hg', -⟩ := hg
        rw [hx, Option.some.injEq] at hf
        exact hf ▸ hover.sound (ih e.base g' hg' b hb)
  exact hind 9 x f.fld (State.resolve_of_fieldOf hf) f hf

theorem FieldView.Sound.k_pos (h : f.Sound) : 0 < f.k := h.degree ▸ f.fld.degree_pos

/-- There is no tower over the modulus 1, since its only element is 0 (R242). -/
theorem State.Inv.one_lt_of_tower (h : s.Inv) {x : TwrIx} (hf : s.fieldOf (.tower x) = some f) : 1 < f.ctx.m := by
  obtain ⟨e, -, -, he, -, -, -⟩ := State.fieldOf_eq_some_tower.mp hf
  obtain ⟨b, hb, hover, hx⟩ := h.tower_field he
  rw [hx, Option.some.injEq] at hf
  subst hf
  have hsound := h.field_sound hb
  have hpos := Fld.char_pos_of_wf hsound.wf
  by_contra hle
  have hone : b.fld.char = 1 := by rw [hsound.char] at hpos ⊢; simp only at hle; omega
  have hzero : isZeroElem e.beta = true := by
    rw [isZeroElem, List.all_eq_true]
    intro v hv
    have := (Fld.elemOk_iff.mp hover.beta).2 v hv
    simp only [beq_iff_eq]
    omega
  have hres := hover.nonResidue
  simp [isNonResidue, hzero] at hres

/-! ### Elements in registers -/

/-- The coordinates of tagged registers are those of an element (R25, R241). -/
theorem State.Inv.elemAt_ok (h : s.Inv) {x : Tier} (hf : s.fieldOf x = some f) {n : Nat} (hn : n + f.k ≤ 64)
    (ht : ∀ j, j < f.k → (s.regAt (n + j)).tag = f.tag) : f.fld.elemOk (s.elemAt f n) = true := by
  obtain ⟨hroot, hadm, -⟩ := h.field_ctx hf
  have hsound := h.field_sound hf
  refine Fld.elemOk_iff.mpr ⟨by rw [State.elemAt_length, hsound.degree], fun v hv => ?_⟩
  obtain ⟨j, hj, rfl⟩ := List.mem_map.mp hv
  have hj := List.mem_range.mp hj
  rw [hsound.char]
  exact State.coordAt_lt h.regs hroot (Ctx.admitted_pos hadm) (by omega) (ht j hj)

theorem State.tagged_iff_block {n c k : Nat} (hk : 0 < k) :
    s.tagged f n (c * k) = true ↔ ∀ i, i < c → ∀ j, j < k → (s.regAt (n + i * k + j)).tag = f.tag := by
  rw [State.tagged_iff]
  constructor
  · intro h i hi j hj
    rw [Nat.add_assoc]
    refine h _ ?_
    calc i * k + j < i * k + k := by omega
      _ = (i + 1) * k := by ring
      _ ≤ c * k := Nat.mul_le_mul_right k hi
  · intro h j hj
    have hdiv : j / k < c := Nat.div_lt_of_lt_mul (by rwa [Nat.mul_comm])
    have hmod := Nat.mod_lt j hk
    have := h (j / k) hdiv (j % k) hmod
    rwa [Nat.add_assoc, Nat.div_add_mod'] at this

/-- Each of the `c` elements of a tagged operand is an element. -/
theorem State.Inv.elemAt_ok_block (h : s.Inv) {x : Tier} (hf : s.fieldOf x = some f) {n c i : Nat}
    (hn : n + c * f.k ≤ 64) (ht : s.tagged f n (c * f.k) = true) (hi : i < c) :
    f.fld.elemOk (s.elemAt f (n + i * f.k)) = true := by
  have hle : (i + 1) * f.k ≤ c * f.k := Nat.mul_le_mul_right _ hi
  rw [Nat.add_mul, Nat.one_mul] at hle
  exact h.elemAt_ok hf (by omega) ((State.tagged_iff_block (h.field_sound hf).k_pos).mp ht i hi)

theorem State.elemAt_congr {n : Nat} (hp : t.par = s.par) (h : ∀ j, j < f.k → t.regAt (n + j) = s.regAt (n + j)) :
    t.elemAt f n = s.elemAt f n := by
  refine List.map_congr_left fun j hj => ?_
  rw [State.coordAt, State.coordAt, hp, h j (List.mem_range.mp hj)]

theorem State.elemAt_setElem_of_out {n k : Nat} {a : Elem} (h : n + f.k ≤ k ∨ k + f.k ≤ n) :
    (s.setElem f n a).elemAt f k = s.elemAt f k :=
  State.elemAt_congr (State.setElem_par _ _ _ _) fun j hj => State.regAt_setElem_of_out (by omega)

theorem State.tag_setElem {n k : Nat} {a : Elem} (hn : n + f.k ≤ 64) (h : n ≤ k ∧ k < n + f.k) :
    ((s.setElem f n a).regAt k).tag = f.tag := by
  rw [State.regAt_setElem, if_pos (by omega)]

/-! ### Results over a tier -/

section
variable (h : s.Inv) {x : Tier} (hf : s.fieldOf x = some f)
include h hf

/-- Reading back an element that was written (R241). -/
theorem State.Inv.elemAt_written {u : State} (hu : u.par = s.par) {n : Nat} {a : Elem} (hn : n + f.k ≤ 64)
    (ha : f.fld.elemOk a = true) : (u.setElem f n a).elemAt f n = a := by
  obtain ⟨-, hadm, hbits⟩ := h.field_ctx hf
  have hsound := h.field_sound hf
  obtain ⟨hlen, hall⟩ := Fld.elemOk_iff.mp ha
  exact State.elemAt_setElem hadm (hu ▸ hbits) hn (hlen.trans hsound.degree) (hsound.char ▸ hall)

theorem elemResult_setElem {rd : Nat} {a : Elem} (hfit : rd + f.k ≤ 64) (ha : f.fld.elemOk a = true) :
    ElemResult s (s.next (s.setElem f rd a)) f rd a := by
  refine ⟨onlyRegisters_next (regsOnly_setElem f rd a) fun n hn => State.regAt_setElem_of_out hn, ?_, ?_⟩
  · rw [State.next_tagged, State.tagged_iff]
    exact fun j hj => State.tag_setElem hfit (by omega)
  · exact h.elemAt_written hf rfl hfit ha

theorem pairResult_setPair {rd : Nat} {p : Elem × Elem} (hfit : rd + 2 * f.k ≤ 64) (hx : f.fld.elemOk p.1 = true)
    (hy : f.fld.elemOk p.2 = true) : PairResult s (s.next (s.setPair f rd p)) f rd p := by
  refine ⟨onlyRegisters_next (regsOnly_setPair f rd p) fun n hn => State.regAt_setPair_of_out hn, ?_, ?_⟩
  · rw [State.next_tagged, State.tagged_iff]
    intro j hj
    rw [State.setPair]
    by_cases hj' : j < f.k
    · rw [State.regAt_setElem_of_out (by omega)]
      exact State.tag_setElem (by omega) (by omega)
    · exact State.tag_setElem (by omega) (by omega)
  · rw [State.pairAt, State.next_elemAt, State.next_elemAt, State.setPair]
    refine Prod.ext ?_ ?_
    · rw [State.elemAt_setElem_of_out (by omega)]
      exact h.elemAt_written hf rfl (by omega) hx
    · exact h.elemAt_written hf (State.setElem_par _ _ _ _) (by omega) hy

theorem pointResult_setPoint {rd : Nat} {p : JPoint} (hfit : rd + 3 * f.k ≤ 64) (hp : f.fld.pointOk p) :
    PointResult s (s.next (s.setPoint f rd p)) f rd p := by
  obtain ⟨hx, hy, hz⟩ := hp
  refine ⟨onlyRegisters_next (regsOnly_setPoint f rd p) fun n hn => State.regAt_setPoint_of_out hn, ?_, ?_⟩
  · rw [State.next_tagged, State.tagged_iff]
    intro j hj
    rw [State.setPoint]
    by_cases hj2 : j < 2 * f.k
    · rw [State.regAt_setElem_of_out (by omega)]
      by_cases hj1 : j < f.k
      · rw [State.regAt_setElem_of_out (by omega)]
        exact State.tag_setElem (by omega) (by omega)
      · exact State.tag_setElem (by omega) (by omega)
    · exact State.tag_setElem (by omega) (by omega)
  · rw [State.pointAt, State.next_elemAt, State.next_elemAt, State.next_elemAt, State.setPoint]
    congr 1
    · rw [State.elemAt_setElem_of_out (by omega), State.elemAt_setElem_of_out (by omega)]
      exact h.elemAt_written hf rfl (by omega) hx
    · rw [State.elemAt_setElem_of_out (by omega)]
      exact h.elemAt_written hf (State.setElem_par _ _ _ _) (by omega) hy
    · exact h.elemAt_written hf (by simp) (by omega) hz

end

/-- A written element, coordinate by coordinate. -/
theorem ElemResult.coords {u : State} {rd : Nat} {a : Elem} {c : Nat → Nat} (h : ElemResult s u f rd a)
    (hc : ∀ j, j < f.k → a.getD j 0 = c j) : CoordResult s u f rd c := by
  obtain ⟨honly, htag, helem⟩ := h
  exact ⟨honly, htag, fun j hj => by rw [← State.elemAt_getD hj, helem, hc j hj]⟩

/-! ### The checks of a command over a tier -/

theorem operandsFit_cons {r : RegIx} {n : Nat} {rest : List (RegIx × Nat)} :
    OperandsFit f ((r, n) :: rest) ↔ r.toNat + n * f.k ≤ 64 ∧ OperandsFit f rest := List.forall_mem_cons

theorem operandsTagged_cons {r : RegIx} {n : Nat} {rest : List (RegIx × Nat)} :
    OperandsTagged s f ((r, n) :: rest) ↔ s.tagged f r.toNat (n * f.k) = true ∧ OperandsTagged s f rest :=
  List.forall_mem_cons

theorem operandsFit_nil : OperandsFit f [] ↔ True := iff_true_intro fun _ h => absurd h List.not_mem_nil

theorem operandsTagged_nil : OperandsTagged s f [] ↔ True := iff_true_intro fun _ h => absurd h List.not_mem_nil

section
variable {α : Type} {o : Option α} {fv : α → FieldView} {i : Instr} {regs srcs : List (RegIx × Nat)}
  {past : α → Bool} {k : α → Attempt State}

/-- The body of a command that names an entry and tests the register ranges, once both checks pass. -/
theorem exec_of_checks
    (hi : exec i s = conclude i s
      (orRaise o .invalidParameter >>= fun v => raiseIf (past v) .illegalCommand >>= fun _ => k v))
    {v : α} (ho : o = some v) (hpast : past v = false) : exec i s = conclude i s (k v) := by
  rw [hi, ho]
  change conclude i s (raiseIf (past v) .illegalCommand >>= fun _ => k v) = _
  rw [hpast]
  rfl

/-- The three shared checks, in their order, of a body that names an entry with a field, tests the register ranges and then
reads its sources. -/
theorem fieldChecks_of_body
    (hi : exec i s = conclude i s
      (orRaise o .invalidParameter >>= fun v => raiseIf (past v) .illegalCommand >>= fun _ => k v))
    (hpast : ∀ v, past v = false ↔ OperandsFit (fv v) regs)
    (hk : ∀ v, ¬ OperandsTagged s (fv v) srcs → k v = .error (.kind .incompatibleContext)) :
    FieldChecks s i (o.map fv) regs srcs := by
  refine ⟨fun hnone => ?_, fun f hsome => ?_⟩
  · rw [Option.map_eq_none_iff] at hnone
    exact faults_of_body hi (by rw [hnone]; rfl)
  · obtain ⟨v, rfl, rfl⟩ := Option.map_eq_some_iff.mp hsome
    refine ⟨fun hfit => faults_of_body hi ?_, fun hfit htag => ?_⟩
    · have hbad : past v = true := by rwa [← hpast, Bool.not_eq_false] at hfit
      change (raiseIf (past v) .illegalCommand >>= fun _ => k v) = _
      rw [hbad]
      rfl
    · exact faults_of_body (exec_of_checks hi rfl ((hpast v).mpr hfit)) (hk v htag)

end

/-- The same for a command over a tower level. -/
theorem fieldChecks_of_towerBody {x : TwrIx} {i : Instr} {regs srcs : List (RegIx × Nat)} {past : FieldView → Bool}
    {k : FieldView → Attempt State}
    (hi : exec i s = conclude i s
      (orRaise (s.fieldOf (.tower x)) .invalidParameter >>= fun v => raiseIf (past v) .illegalCommand >>= fun _ => k v))
    (hpast : ∀ v, past v = false ↔ OperandsFit v regs)
    (hk : ∀ v, ¬ OperandsTagged s v srcs → k v = .error (.kind .incompatibleContext)) :
    FieldChecks s i (s.fieldOf (.tower x)) regs srcs := by
  simpa using fieldChecks_of_body (fv := fun v => v) hi hpast hk

/-! Reading a source operand either succeeds or raises IncompatibleContext. -/

theorem State.needElem_ok {n : Nat} (h : s.tagged f n (1 * f.k) = true) : s.needElem f n = .ok (s.elemAt f n) :=
  if_pos (by rwa [Nat.one_mul] at h)

theorem State.needElem_error {n : Nat} (h : ¬ s.tagged f n (1 * f.k) = true) :
    s.needElem f n = .error (.kind .incompatibleContext) := if_neg (by rwa [Nat.one_mul] at h)

theorem State.needPair_ok {n : Nat} (h : s.tagged f n (2 * f.k) = true) : s.needPair f n = .ok (s.pairAt f n) := if_pos h

theorem State.needPair_error {n : Nat} (h : ¬ s.tagged f n (2 * f.k) = true) :
    s.needPair f n = .error (.kind .incompatibleContext) := if_neg h

theorem State.needPoint_ok {n : Nat} (h : s.tagged f n (3 * f.k) = true) : s.needPoint f n = .ok (s.pointAt f n) :=
  if_pos h

theorem State.needPoint_error {n : Nat} (h : ¬ s.tagged f n (3 * f.k) = true) :
    s.needPoint f n = .error (.kind .incompatibleContext) := if_neg h

end Sys2Proof.Machine
end

section
/-! The commands over a tower level (R243 to R256), and the predicates of prime-field elements (R224, R225). -/

namespace Sys2Proof.Machine

variable {s t : State} {f : FieldView}

/-! ### The two shared forms -/

section
variable {i : Instr} {rd rs1 rs2 : RegIx} {x : TwrIx}

/-- The checks and the result of a command with one source element (R247). -/
theorem elemUnary_command {op : Fld → Elem → Elem} (hi : exec i s = conclude i s (s.elemUnary rd rs1 x op)) :
    FieldChecks s i (s.fieldOf (.tower x)) [(rd, 1), (rs1, 1)] [(rs1, 1)] ∧
      ∀ f, s.fieldOf (.tower x) = some f → OperandsFit f [(rd, 1), (rs1, 1)] → OperandsTagged s f [(rs1, 1)] →
        exec i s = .next (s.next (s.setElem f rd.toNat (op f.fld (s.elemAt f rs1.toNat)))) := by
  have hpast (v : FieldView) : (runsPast rd.toNat v.k || runsPast rs1.toNat v.k) = false ↔
      OperandsFit v [(rd, 1), (rs1, 1)] := by
    simp only [Bool.or_eq_false_iff, runsPast_eq_false, operandsFit_cons, operandsFit_nil, and_true, Nat.one_mul]
  refine ⟨fieldChecks_of_towerBody hi hpast fun v hv => ?_, fun f hf hfit htag => ?_⟩
  · rw [State.needElem_error (by simpa [operandsTagged_cons] using hv)]
    rfl
  · refine exec_of_body (exec_of_checks hi hf ((hpast f).mpr hfit)) ?_
    rw [State.needElem_ok (operandsTagged_cons.mp htag).1]
    rfl

/-- The checks and the result of a command with two source elements (R245). -/
theorem elemBinary_command {op : Fld → Elem → Elem → Elem} (hi : exec i s = conclude i s (s.elemBinary rd rs1 rs2 x op)) :
    FieldChecks s i (s.fieldOf (.tower x)) [(rd, 1), (rs1, 1), (rs2, 1)] [(rs1, 1), (rs2, 1)] ∧
      ∀ f, s.fieldOf (.tower x) = some f → OperandsFit f [(rd, 1), (rs1, 1), (rs2, 1)] →
        OperandsTagged s f [(rs1, 1), (rs2, 1)] →
        exec i s = .next (s.next (s.setElem f rd.toNat (op f.fld (s.elemAt f rs1.toNat) (s.elemAt f rs2.toNat)))) := by
  have hpast (v : FieldView) : (runsPast rd.toNat v.k || runsPast rs1.toNat v.k || runsPast rs2.toNat v.k) = false ↔
      OperandsFit v [(rd, 1), (rs1, 1), (rs2, 1)] := by
    simp only [Bool.or_eq_false_iff, runsPast_eq_false, operandsFit_cons, operandsFit_nil, and_true, Nat.one_mul, and_assoc]
  refine ⟨fieldChecks_of_towerBody hi hpast fun v hv => ?_, fun f hf hfit htag => ?_⟩
  · rw [operandsTagged_cons, operandsTagged_cons] at hv
    by_cases h1 : s.tagged v rs1.toNat (1 * v.k) = true
    · rw [State.needElem_ok h1, State.needElem_error fun h2 => hv ⟨h1, h2, operandsTagged_nil.mpr trivial⟩]
      rfl
    · rw [State.needElem_error h1]
      rfl
  · refine exec_of_body (exec_of_checks hi hf ((hpast f).mpr hfit)) ?_
    obtain ⟨h1, htag2⟩ := operandsTagged_cons.mp htag
    rw [State.needElem_ok h1, State.needElem_ok (operandsTagged_cons.mp htag2).1]
    rfl

end

/-! ### Sources and destinations -/

section
variable (h : s.Inv) {x : Tier} (hf : s.fieldOf x = some f)
include h hf

theorem State.Inv.source_ok {r : RegIx} {n : Nat} (hfit : r.toNat + n * f.k ≤ 64)
    (ht : s.tagged f r.toNat (n * f.k) = true) (hn : 0 < n) : f.fld.elemOk (s.elemAt f r.toNat) = true := by
  have := h.elemAt_ok_block hf hfit ht hn
  rwa [Nat.zero_mul, Nat.add_zero] at this

end

/-! ### Coordinates of sums, differences and negatives (R245 to R247) -/

theorem subMod_eq_add {m a b : Nat} (hm : 0 < m) (hb : b ≤ m) : subMod m a b = (a + (m - b)) % m := by
  have hcast := subMod_cast hm a b
  have h2 : ((a + (m - b) : Nat) : Int) % m = ((a : Int) - b) % m := by
    rw [Nat.cast_add, Nat.cast_sub hb, show (a : Int) + (m - b) = a - b + m by ring, Int.add_emod_right]
  rw [← h2] at hcast
  exact_mod_cast hcast

theorem Fld.add_getD {g : Fld} {a b : Elem} {j : Nat} (ha : j < a.length) (hb : j < b.length) :
    (g.add a b).getD j 0 = (a.getD j 0 + b.getD j 0) % g.char := by simp [Fld.add, ha, hb]

theorem Fld.sub_getD {g : Fld} {a b : Elem} {j : Nat} (ha : j < a.length) (hb : j < b.length) :
    (g.sub a b).getD j 0 = subMod g.char (a.getD j 0) (b.getD j 0) := by simp [Fld.sub, ha, hb]

theorem Fld.neg_getD {g : Fld} {a : Elem} {j : Nat} (ha : j < a.length) :
    (g.neg a).getD j 0 = subMod g.char 0 (a.getD j 0) := by simp [Fld.neg, ha]

theorem Fld.conj_getD {b : Fld} {β g a : Elem} {j : Nat} (ha : a.length = 2 * b.degree) (hj : j < 2 * b.degree) :
    ((Fld.quad b β g).conj a).getD j 0 = if j < b.degree then a.getD j 0 else subMod b.char 0 (a.getD j 0) := by
  have hsplit : a = a.take b.degree ++ a.drop b.degree := (List.take_append_drop _ _).symm
  have hlen : (a.take b.degree).length = b.degree := by simp [ha]; omega
  rw [Fld.conj, coeff, coeff, Nat.zero_mul, List.drop_zero, Nat.one_mul,
    List.take_of_length_le (l := a.drop b.degree) (by simp [ha]; omega)]
  split
  next hlt =>
    rw [List.getD_append _ _ _ _ (by omega)]
    conv_rhs => rw [hsplit, List.getD_append _ _ _ _ (by omega)]
  next hge =>
    rw [List.getD_append_right _ _ _ _ (by omega), Fld.neg_getD (by simp [ha]; omega)]
    conv_rhs => rw [hsplit, List.getD_append_right _ _ _ _ (by omega)]

end Sys2Proof.Machine
end

section
/-! The tower commands settled: linear (R243 to R247, R254), multiplicative (R248 to R251, R255), inverses (R250, R256), and
the predicates of elements (R224, R225, R252, R253). -/

namespace Sys2Proof.Machine

variable {s t : State} {f : FieldView}

/-! ### A tower level and its base -/

theorem State.Inv.base_of_tower (h : s.Inv) {x : TwrIx} {e : Twr} (he : s.twrAt x = some e)
    (hf : s.fieldOf (.tower x) = some f) : ∃ b, s.fieldOf e.base = some b ∧ TowerOver e b ∧
      f = { root := b.root, ctx := b.ctx, k := degreeNat e.deg * b.k, fld := e.fldOver b.fld } := by
  obtain ⟨b, hb, hover, hx⟩ := h.tower_field he
  exact ⟨b, hb, hover, Option.some.inj (hf.symm.trans hx)⟩

theorem Fld.zero_ok {g : Fld} (h : g.wf = true) : g.elemOk g.zero = true := by
  obtain ⟨R, _, ⟨m⟩⟩ := Fld.exists_model h
  exact m.zero ▸ m.ok 0

theorem Fld.one_ok {g : Fld} (h : g.wf = true) : g.elemOk g.one = true := by
  obtain ⟨R, _, ⟨m⟩⟩ := Fld.exists_model h
  exact m.one ▸ m.ok 1

theorem Fld.add_ok {g : Fld} (h : g.wf = true) {a b : Elem} (ha : g.elemOk a = true) (hb : g.elemOk b = true) :
    g.elemOk (g.add a b) = true := by
  obtain ⟨R, _, ⟨m⟩⟩ := Fld.exists_model h
  obtain ⟨x, rfl⟩ := m.exists_of_ok ha
  obtain ⟨y, rfl⟩ := m.exists_of_ok hb
  exact m.add x y ▸ m.ok _

theorem Fld.sub_ok {g : Fld} (h : g.wf = true) {a b : Elem} (ha : g.elemOk a = true) (hb : g.elemOk b = true) :
    g.elemOk (g.sub a b) = true := by
  obtain ⟨R, _, ⟨m⟩⟩ := Fld.exists_model h
  obtain ⟨x, rfl⟩ := m.exists_of_ok ha
  obtain ⟨y, rfl⟩ := m.exists_of_ok hb
  exact m.sub x y ▸ m.ok _

theorem Fld.neg_ok {g : Fld} (h : g.wf = true) {a : Elem} (ha : g.elemOk a = true) : g.elemOk (g.neg a) = true := by
  obtain ⟨R, _, ⟨m⟩⟩ := Fld.exists_model h
  obtain ⟨x, rfl⟩ := m.exists_of_ok ha
  exact m.neg x ▸ m.ok _

theorem Fld.mul_ok {g : Fld} (h : g.wf = true) {a b : Elem} (ha : g.elemOk a = true) (hb : g.elemOk b = true) :
    g.elemOk (g.mul a b) = true := by
  obtain ⟨R, _, ⟨m⟩⟩ := Fld.exists_model h
  obtain ⟨x, rfl⟩ := m.exists_of_ok ha
  obtain ⟨y, rfl⟩ := m.exists_of_ok hb
  exact m.mul x y ▸ m.ok _

theorem Fld.pow_ok {g : Fld} (h : g.wf = true) {a : Elem} (ha : g.elemOk a = true) (e : Nat) :
    g.elemOk (g.pow a e) = true := by
  obtain ⟨R, _, ⟨m⟩⟩ := Fld.exists_model h
  obtain ⟨x, rfl⟩ := m.exists_of_ok ha
  exact m.pow x e ▸ m.ok _

theorem Fld.pow_eq_prodOf {g : Fld} (h : g.wf = true) {a : Elem} (ha : g.elemOk a = true) (e : Nat) :
    g.pow a e = g.prodOf e a := by
  obtain ⟨R, _, ⟨m⟩⟩ := Fld.exists_model h
  obtain ⟨x, rfl⟩ := m.exists_of_ok ha
  rw [m.pow, m.prodOf]

theorem Fld.frob_iterate_ok {g : Fld} (h : g.wf = true) {a : Elem} (ha : g.elemOk a = true) (j : Nat) :
    g.elemOk (g.frob^[j] a) = true := by
  induction j with
  | zero => exact ha
  | succ j ih => rw [Function.iterate_succ_apply']; exact Fld.frob_ok h ih

theorem Fld.conj_ok {b : Fld} {β g a : Elem} (h : b.wf = true) (ha : (Fld.quad b β g).elemOk a = true) :
    (Fld.quad b β g).elemOk ((Fld.quad b β g).conj a) = true := by
  obtain ⟨u, v, rfl, hu, hv⟩ := Fld.exists_append_of_quad ha
  have hlu := (Fld.elemOk_iff.mp hu).1
  have hlv := (Fld.elemOk_iff.mp hv).1
  rw [Fld.conj, coeff_append_zero hlu, coeff_append_succ hlu, coeff_self hlv]
  exact (Fld.elemOk_quad hlu).mpr ⟨hu, Fld.neg_ok h hv⟩

/-! ### Linear commands (R243 to R247, R254) -/

theorem past1_iff (f : FieldView) (r : RegIx) : runsPast r.toNat f.k = false ↔ OperandsFit f [(r, 1)] := by
  simp only [runsPast_eq_false, operandsFit_cons, operandsFit_nil, and_true, Nat.one_mul]

theorem past2_iff (f : FieldView) (r q : RegIx) :
    (runsPast r.toNat f.k || runsPast q.toNat f.k) = false ↔ OperandsFit f [(r, 1), (q, 1)] := by
  simp only [Bool.or_eq_false_iff, runsPast_eq_false, operandsFit_cons, operandsFit_nil, and_true, Nat.one_mul]

/-- EZERO and EONE write a constant of the tier. -/
theorem elemConst_command {i : Instr} {rd : RegIx} {x : TwrIx} {c : Fld → Elem}
    (hi : exec i s = conclude i s (orRaise (s.fieldOf (.tower x)) .invalidParameter >>= fun f =>
      raiseIf (runsPast rd.toNat f.k) .illegalCommand >>= fun _ => .ok (s.setElem f rd.toNat (c f.fld)))) :
    FieldChecks s i (s.fieldOf (.tower x)) [(rd, 1)] [] ∧
      ∀ f, s.fieldOf (.tower x) = some f → OperandsFit f [(rd, 1)] →
        exec i s = .next (s.next (s.setElem f rd.toNat (c f.fld))) :=
  ⟨fieldChecks_of_towerBody hi (fun v => past1_iff v rd) fun _ hv => absurd (operandsTagged_nil.mpr trivial) hv,
    fun f hf hfit => exec_of_body (exec_of_checks hi hf ((past1_iff f rd).mpr hfit)) rfl⟩

theorem Fld.isQuadratic_fldOver (e : Twr) (b : Fld) : (e.fldOver b).isQuadratic = decide (e.deg = .quadratic) := by
  rw [Twr.fldOver]
  cases e.deg <;> rfl

theorem exec_econj_cubic {rd rs1 : RegIx} {x : TwrIx} (hf : s.fieldOf (.tower x) = some f)
    (hq : f.fld.isQuadratic = false) : Faults (.econj rd rs1 x) s .invalidParameter :=
  faults_of_body rfl (by rw [State.needTower_eq_ok.mpr hf]; simp only [bind, Except.bind, hq]; rfl)

/-- ECONJ over a quadratic level: the checks of the other commands with one source, and the conjugate (R254). -/
theorem exec_econj_quad (rd rs1 : RegIx) {x : TwrIx} (hf : s.fieldOf (.tower x) = some f)
    (hq : f.fld.isQuadratic = true) :
    (¬ OperandsFit f [(rd, 1), (rs1, 1)] → Faults (.econj rd rs1 x) s .illegalCommand) ∧
    (OperandsFit f [(rd, 1), (rs1, 1)] → ¬ OperandsTagged s f [(rs1, 1)] →
      Faults (.econj rd rs1 x) s .incompatibleContext) ∧
    (OperandsFit f [(rd, 1), (rs1, 1)] → OperandsTagged s f [(rs1, 1)] →
      exec (.econj rd rs1 x) s = .next (s.next (s.setElem f rd.toNat (f.fld.conj (s.elemAt f rs1.toNat))))) := by
  have hi : exec (.econj rd rs1 x) s = conclude (.econj rd rs1 x) s (s.elemUnary rd rs1 x Fld.conj) := by
    change conclude (.econj rd rs1 x) s (s.needTower x >>= fun f => raiseIf (!f.fld.isQuadratic) .invalidParameter >>=
      fun _ => raiseIf (runsPast rd.toNat f.k || runsPast rs1.toNat f.k) .illegalCommand >>= fun _ => _) = _
    rw [State.elemUnary, State.needTower_eq_ok.mpr hf]
    simp only [bind, Except.bind, hq]
    rfl
  obtain ⟨⟨-, hcheck⟩, hexec⟩ := elemUnary_command hi
  exact ⟨(hcheck f hf).1, (hcheck f hf).2, hexec f hf⟩

/-- Settles O39. -/
theorem towerLinear : Obligations.TowerLinear := by
  intro s h rd rs1 rs2 lvl
  obtain ⟨hzero, ezero⟩ := elemConst_command (s := s) (i := .ezero rd lvl) (c := Fld.zero) rfl
  obtain ⟨hone, eone⟩ := elemConst_command (s := s) (i := .eone rd lvl) (c := Fld.one) rfl
  obtain ⟨hadd, eadd⟩ := elemBinary_command (s := s) (i := .eadd rd rs1 rs2 lvl) rfl
  obtain ⟨hsub, esub⟩ := elemBinary_command (s := s) (i := .esub rd rs1 rs2 lvl) rfl
  obtain ⟨hneg, eneg⟩ := elemUnary_command (s := s) (i := .eneg rd rs1 lvl) rfl
  refine ⟨hzero, hone, hadd, hsub, hneg, fun hnone => ?_, fun f hf => ?_⟩
  · exact faults_of_body rfl (by rw [State.needTower, State.needField, hnone]; rfl)
  have hsound := h.field_sound hf
  have hpos : 0 < f.ctx.m := hsound.char ▸ Fld.char_pos_of_wf hsound.wf
  have hres {a : Elem} (hfit : rd.toNat + 1 * f.k ≤ 64) (ha : f.fld.elemOk a = true) :
      ElemResult s (s.next (s.setElem f rd.toNat a)) f rd.toNat a :=
    elemResult_setElem h hf (by rwa [Nat.one_mul] at hfit) ha
  have hsource {r : RegIx} (hfit : r.toNat + 1 * f.k ≤ 64) (ht : s.tagged f r.toNat (1 * f.k) = true) :
      f.fld.elemOk (s.elemAt f r.toNat) = true := h.source_ok hf hfit ht Nat.one_pos
  have hcoord {r : RegIx} (hfit : r.toNat + 1 * f.k ≤ 64) (ht : s.tagged f r.toNat (1 * f.k) = true) {j : Nat}
      (hj : j < f.k) : s.coordAt f (r.toNat + j) ≤ f.ctx.m := by
    have hok := (Fld.elemOk_iff.mp (hsource hfit ht)).2 (s.coordAt f (r.toNat + j))
      (List.mem_map_of_mem (List.mem_range.mpr hj))
    rw [hsound.char] at hok
    exact hok.le
  have hnegCoord {r : RegIx} (hfit : r.toNat + 1 * f.k ≤ 64) (ht : s.tagged f r.toNat (1 * f.k) = true) {j : Nat}
      (hj : j < f.k) : subMod f.ctx.m 0 (s.coordAt f (r.toNat + j)) = (f.ctx.m - s.coordAt f (r.toNat + j)) % f.ctx.m := by
    rw [subMod_eq_add hpos (hcoord hfit ht hj), Nat.zero_add]
  refine ⟨fun hfit => ⟨?_, ?_⟩, fun hfit ht => ?_, fun hfit ht => ?_, fun e he => ⟨fun hd => ?_, fun hd => ?_⟩⟩
  · refine ⟨_, ezero f hf hfit, (hres (operandsFit_cons.mp hfit).1 (Fld.zero_ok hsound.wf)).coords fun j hj => ?_⟩
    simp [Fld.zero, List.getD, hsound.degree, hj]
  · refine ⟨_, eone f hf hfit, (hres (operandsFit_cons.mp hfit).1 (Fld.one_ok hsound.wf)).coords fun j hj => ?_⟩
    rw [Fld.one, Fld.embed, hsound.char]
    cases j with
    | zero => rfl
    | succ j => simp [List.getD, List.getElem?_replicate]; split <;> rfl
  · have hexec := And.intro (eadd f hf hfit ht) (esub f hf hfit ht)
    simp only [operandsFit_cons, operandsFit_nil, operandsTagged_cons, operandsTagged_nil, and_true] at hfit ht
    obtain ⟨hrd, hr1, hr2⟩ := hfit
    obtain ⟨ht1, ht2⟩ := ht
    have ha := hsource hr1 ht1
    have hb := hsource hr2 ht2
    refine ⟨⟨_, hexec.1, (hres hrd (Fld.add_ok hsound.wf ha hb)).coords fun j hj => ?_⟩,
      ⟨_, hexec.2, (hres hrd (Fld.sub_ok hsound.wf ha hb)).coords fun j hj => ?_⟩⟩
    · rw [Fld.add_getD (by simpa using hj) (by simpa using hj), State.elemAt_getD hj, State.elemAt_getD hj, hsound.char]
    · rw [Fld.sub_getD (by simpa using hj) (by simpa using hj), State.elemAt_getD hj, State.elemAt_getD hj, hsound.char,
        subMod_eq_add hpos (hcoord hr2 ht2 hj)]
  · have hexec := eneg f hf hfit ht
    simp only [operandsFit_cons, operandsFit_nil, operandsTagged_cons, operandsTagged_nil, and_true] at hfit ht
    refine ⟨_, hexec, (hres hfit.1 (Fld.neg_ok hsound.wf (hsource hfit.2 ht))).coords fun j hj => ?_⟩
    rw [Fld.neg_getD (by simpa using hj), State.elemAt_getD hj, hsound.char, hnegCoord hfit.2 ht hj]
  · obtain ⟨b, hb, -, rfl⟩ := h.base_of_tower he hf
    exact exec_econj_cubic hf (by rw [Fld.isQuadratic_fldOver, hd]; rfl)
  · obtain ⟨b, hb, hover, hview⟩ := h.base_of_tower he hf
    obtain ⟨hill, hinc, hexec⟩ := exec_econj_quad rd rs1 hf
      (by rw [hview, Fld.isQuadratic_fldOver, hd]; rfl)
    refine ⟨hill, hinc, fun hfit ht => ?_⟩
    have hexec := hexec hfit ht
    simp only [operandsFit_cons, operandsFit_nil, operandsTagged_cons, operandsTagged_nil, and_true] at hfit ht
    have hquad : f.fld = .quad b.fld e.beta (e.gamma.getD 0 []) := by simp only [hview, Twr.fldOver, hd]
    have hok := hsource hfit.2 ht
    have hk : f.k = 2 * b.fld.degree := by rw [← hsound.degree, hquad]; rfl
    have hchar : b.fld.char = f.ctx.m := by rw [← hsound.char, hquad]; rfl
    refine ⟨_, hexec, (hres hfit.1 (hquad ▸ Fld.conj_ok (h.field_sound hb).wf (hquad ▸ hok))).coords fun j hj => ?_⟩
    rw [hquad, Fld.conj_getD (by rw [State.elemAt_length, hk]) (hk ▸ hj), State.elemAt_getD hj, hchar,
      hnegCoord hfit.2 ht hj, hk]
    exact if_congr (by omega) rfl rfl

end Sys2Proof.Machine
end

section
/-! The multiplicative tower commands (R248, R249, R251, R255), inverses (R250, R256), and the predicates of elements (R224,
R225, R252, R253). -/

namespace Sys2Proof.Machine

variable {s t : State} {f : FieldView}

/-! ### Predicates (R224, R225, R252, R253) -/

theorem isZeroElem_elemAt (n : Nat) :
    isZeroElem (s.elemAt f n) = decide (∀ j, j < f.k → s.coordAt f (n + j) = 0) := by
  rw [Bool.eq_iff_iff, decide_eq_true_iff]
  simp [isZeroElem, State.elemAt]

theorem elemAt_beq_elemAt (n k : Nat) :
    (s.elemAt f n == s.elemAt f k) = decide (∀ j, j < f.k → s.coordAt f (n + j) = s.coordAt f (k + j)) := by
  rw [Bool.eq_iff_iff, beq_iff_eq, decide_eq_true_iff]
  simp [State.elemAt]

/-- EISZ: the checks and the result (R252). -/
theorem eisz_command (rs1 : RegIx) (x : TwrIx) :
    FieldChecks s (.eisz rs1 x) (s.fieldOf (.tower x)) [(rs1, 1)] [(rs1, 1)] ∧
      ∀ f, s.fieldOf (.tower x) = some f → OperandsFit f [(rs1, 1)] → OperandsTagged s f [(rs1, 1)] →
        exec (.eisz rs1 x) s = .next (s.next (s.setT (isZeroElem (s.elemAt f rs1.toNat)))) := by
  refine ⟨fieldChecks_of_towerBody rfl (fun v => past1_iff v rs1) fun v hv => ?_, fun f hf hfit htag => ?_⟩
  · rw [State.needElem_error fun h1 => hv (operandsTagged_cons.mpr ⟨h1, operandsTagged_nil.mpr trivial⟩)]
    rfl
  · refine exec_of_body (exec_of_checks rfl hf ((past1_iff f rs1).mpr hfit)) ?_
    rw [State.needElem_ok (operandsTagged_cons.mp htag).1]
    rfl

/-- EEQ: the checks and the result (R253). -/
theorem eeq_command (rs1 rs2 : RegIx) (x : TwrIx) :
    FieldChecks s (.eeq rs1 rs2 x) (s.fieldOf (.tower x)) [(rs1, 1), (rs2, 1)] [(rs1, 1), (rs2, 1)] ∧
      ∀ f, s.fieldOf (.tower x) = some f → OperandsFit f [(rs1, 1), (rs2, 1)] →
        OperandsTagged s f [(rs1, 1), (rs2, 1)] →
        exec (.eeq rs1 rs2 x) s = .next (s.next (s.setT (s.elemAt f rs1.toNat == s.elemAt f rs2.toNat))) := by
  refine ⟨fieldChecks_of_towerBody rfl (fun v => past2_iff v rs1 rs2) fun v hv => ?_, fun f hf hfit htag => ?_⟩
  · by_cases h1 : s.tagged v rs1.toNat (1 * v.k) = true
    · rw [State.needElem_ok h1, State.needElem_error fun h2 => hv (operandsTagged_cons.mpr
        ⟨h1, operandsTagged_cons.mpr ⟨h2, operandsTagged_nil.mpr trivial⟩⟩)]
      rfl
    · rw [State.needElem_error h1]
      rfl
  · obtain ⟨h1, htag2⟩ := operandsTagged_cons.mp htag
    refine exec_of_body (exec_of_checks rfl hf ((past2_iff f rs1 rs2).mpr hfit)) ?_
    rw [State.needElem_ok h1, State.needElem_ok (operandsTagged_cons.mp htag2).1]
    rfl

/-- Settles O36. -/
theorem fieldPredicates : Obligations.FieldPredicates := by
  intro s h rs1 rs2 lvl
  obtain ⟨hz, ez⟩ := eisz_command (s := s) rs1 lvl
  obtain ⟨heq, eeq⟩ := eeq_command (s := s) rs1 rs2 lvl
  refine ⟨fun ht => ?_, fun c e ht he => ?_, hz, heq, fun f hf => ⟨fun hfit htag => ?_, fun hfit htag => ?_⟩⟩
  · have hraw := State.needFp_of_raw ht
    exact ⟨faults_of_body rfl (by rw [hraw]; rfl), faults_of_body rfl (by rw [hraw]; rfl)⟩
  · have hfp := State.needFp_of_tag ht he
    refine ⟨⟨_, exec_of_body rfl (by rw [hfp]; rfl), onlyTruth_setT _⟩, fun ht2 => ?_, fun ht2 => ?_⟩
    · have hne := State.needSameTag_of_ne (f := primeView c e) ht2
      exact faults_of_body rfl (by simp only [hfp, hne, bind, Except.bind])
    · have hsame : s.needSameTag (primeView c e) rs2 = .ok () := State.needSameTag_eq_ok.mpr ht2
      exact ⟨_, exec_of_body rfl (by simp only [hfp, hsame, bind, Except.bind]; rfl), onlyTruth_setT _⟩
  · rw [← isZeroElem_elemAt]
    exact ⟨_, ez f hf hfit htag, onlyTruth_setT _⟩
  · rw [← elemAt_beq_elemAt]
    exact ⟨_, eeq f hf hfit htag, onlyTruth_setT _⟩

/-! ### EPOW (R251) -/

theorem epow_command (rd rs1 rs2 : RegIx) (x : TwrIx) :
    FieldChecks s (.epow rd rs1 rs2 x) (s.fieldOf (.tower x)) [(rd, 1), (rs1, 1)] [(rs1, 1)] ∧
      ∀ f, s.fieldOf (.tower x) = some f → OperandsFit f [(rd, 1), (rs1, 1)] → OperandsTagged s f [(rs1, 1)] →
        (s.tag rs2 ≠ .raw → Faults (.epow rd rs1 rs2 x) s .incompatibleContext) ∧
        (s.tag rs2 = .raw → exec (.epow rd rs1 rs2 x) s =
          .next (s.next (s.setElem f rd.toNat (f.fld.pow (s.elemAt f rs1.toNat) (s.val rs2))))) := by
  refine ⟨fieldChecks_of_towerBody rfl (fun v => past2_iff v rd rs1) fun v hv => ?_, fun f hf hfit htag => ?_⟩
  · rw [State.needElem_error fun h1 => hv (operandsTagged_cons.mpr ⟨h1, operandsTagged_nil.mpr trivial⟩)]
    rfl
  · have hbody := exec_of_checks (i := .epow rd rs1 rs2 x) rfl hf ((past2_iff f rd rs1).mpr hfit)
    rw [State.needElem_ok (operandsTagged_cons.mp htag).1] at hbody
    refine ⟨fun hraw => faults_of_body hbody ?_, fun hraw => exec_of_body hbody ?_⟩
    · simp only [State.needRaw_of_ne hraw, bind, Except.bind]
    · simp only [State.needRaw_eq_ok.mpr ⟨hraw, rfl⟩, bind, Except.bind]

/-! ### The Frobenius formula and the product (R257, R259) -/

theorem frob_fldOver {e : Twr} {b : FieldView} (hb : b.Sound) (hover : TowerOver e b) {a : Elem}
    (ha : (e.fldOver b.fld).elemOk a = true) :
    coeff b.k 0 ((e.fldOver b.fld).frob a) = b.fld.frob (coeff b.k 0 a) ∧
      ∀ i, i + 1 < degreeNat e.deg → coeff b.k (i + 1) ((e.fldOver b.fld).frob a) =
        b.fld.mul (b.fld.frob (coeff b.k (i + 1) a)) (e.gamma.getD i []) := by
  have hlen {u : Elem} (hu : b.fld.elemOk u = true) : u.length = b.k := (Fld.elemOk_iff.mp hu).1.trans hb.degree
  have hlenFrob {u : Elem} (hu : b.fld.elemOk u = true) : (b.fld.frob u).length = b.k := hlen (Fld.frob_ok hb.wf hu)
  have hlenMul {u g : Elem} (hu : b.fld.elemOk u = true) (hg : b.fld.elemOk g = true) :
      (b.fld.mul (b.fld.frob u) g).length = b.k := hlen (Fld.mul_ok hb.wf (Fld.frob_ok hb.wf hu) hg)
  have hgamma (i : Nat) (hi : i + 1 < degreeNat e.deg) := hover.getD_ok hi
  have hdeg {u : Elem} (hu : b.fld.elemOk u = true) := (Fld.elemOk_iff.mp hu).1
  cases hd : e.deg <;> simp only [hd] at hgamma <;> simp only [Twr.fldOver, hd] at ha ⊢
  case quadratic =>
    obtain ⟨u, v, rfl, hu, hv⟩ := Fld.exists_append_of_quad ha
    rw [Fld.frob_quad _ _ (hdeg hu) (hdeg hv), coeff_append_zero (hlenFrob hu), coeff_append_zero (hlen hu)]
    refine ⟨rfl, fun i hi => ?_⟩
    obtain rfl : i = 0 := by simp only [degreeNat] at hi; omega
    rw [coeff_append_succ (hlenFrob hu), coeff_append_succ (hlen hu), coeff_self (hlen hv),
      coeff_self (hlenMul hv (hgamma 0 (by decide)))]
  case cubic =>
    obtain ⟨u, v, w, rfl, hu, hv, hw⟩ := Fld.exists_append_of_cubic ha
    rw [Fld.frob_cubic _ _ _ (hdeg hu) (hdeg hv) (hdeg hw), coeff_append_zero (hlenFrob hu), coeff_append_zero (hlen hu)]
    refine ⟨rfl, fun i hi => ?_⟩
    rw [coeff_append_succ (hlenFrob hu), coeff_append_succ (hlen hu)]
    obtain rfl | rfl : i = 0 ∨ i = 1 := by simp only [degreeNat] at hi; omega
    · rw [coeff_append_zero (hlen hv), coeff_append_zero (hlenMul hv (hgamma 0 (by decide)))]
    · rw [coeff_append_succ (hlen hv), coeff_append_succ (hlenMul hv (hgamma 0 (by decide))), coeff_self (hlen hw),
        coeff_self (hlenMul hw (hgamma 1 (by decide)))]

/-- The Karatsuba form of the quadratic product (R257). -/
theorem karatsuba {g : Fld} {beta g1 a0 a1 b0 b1 : Elem} (h : (Fld.quad g beta g1).wf = true) (ha0 : g.elemOk a0 = true)
    (ha1 : g.elemOk a1 = true) (hb0 : g.elemOk b0 = true) (hb1 : g.elemOk b1 = true) :
    (Fld.quad g beta g1).mul (a0 ++ a1) (b0 ++ b1) =
      g.add (g.mul a0 b0) (g.mul beta (g.mul a1 b1)) ++
        g.sub (g.sub (g.mul (g.add a0 a1) (g.add b0 b1)) (g.mul a0 b0)) (g.mul a1 b1) := by
  obtain ⟨hg, hβ, -⟩ := Fld.wf_quad.mp h
  obtain ⟨R, _, ⟨m⟩⟩ := Fld.exists_model hg
  obtain ⟨w, rfl⟩ := m.exists_of_ok hβ
  obtain ⟨x0, rfl⟩ := m.exists_of_ok ha0
  obtain ⟨x1, rfl⟩ := m.exists_of_ok ha1
  obtain ⟨y0, rfl⟩ := m.exists_of_ok hb0
  obtain ⟨y1, rfl⟩ := m.exists_of_ok hb1
  simp only [m.quad_mul, m.mul, m.add, m.sub, m.append_inj, m.val_inj, true_and]
  ring

/-- Settles O40. -/
theorem towerMultiplicative : Obligations.TowerMultiplicative := by
  refine ⟨fun s h rd rs1 rs2 j lvl => ?_, fun s h lvl e f he hf => ?_, fun s c b hb a => ?_,
    fun g beta g1 a0 a1 b0 b1 => karatsuba⟩
  · obtain ⟨hmul, emul⟩ := elemBinary_command (s := s) (i := .emul rd rs1 rs2 lvl) rfl
    obtain ⟨hsqr, esqr⟩ := elemUnary_command (s := s) (i := .esqr rd rs1 lvl) rfl
    obtain ⟨hpow, epow⟩ := epow_command (s := s) rd rs1 rs2 lvl
    obtain ⟨hfrob, efrob⟩ := elemUnary_command (s := s) (i := .efrob rd rs1 j lvl) rfl
    refine ⟨hmul, hsqr, hpow, hfrob, fun f hf hfit htag => ?_⟩
    have hwf := (h.field_sound hf).wf
    obtain ⟨hrd, hfit1⟩ := operandsFit_cons.mp hfit
    obtain ⟨hr1, -⟩ := operandsFit_cons.mp hfit1
    obtain ⟨ht1, -⟩ := operandsTagged_cons.mp htag
    have ha := h.source_ok hf hr1 ht1 Nat.one_pos
    have hres {v : Elem} (hv : f.fld.elemOk v = true) :
        ElemResult s (s.next (s.setElem f rd.toNat v)) f rd.toNat v :=
      elemResult_setElem h hf (by rwa [Nat.one_mul] at hrd) hv
    refine ⟨⟨_, esqr f hf hfit htag, hres (Fld.mul_ok hwf ha ha)⟩, ⟨_, efrob f hf hfit htag, ?_⟩,
      (epow f hf hfit htag).1, fun hraw => ⟨_, (epow f hf hfit htag).2 hraw, ?_⟩, fun hfit2 htag2 => ?_⟩
    · rw [Fld.frobs_eq]
      exact hres (Fld.frob_iterate_ok hwf ha _)
    · rw [← Fld.pow_eq_prodOf hwf ha]
      exact hres (Fld.pow_ok hwf ha _)
    · have hr2 := (operandsFit_cons.mp hfit2).1
      have ht2 := (operandsTagged_cons.mp htag2).1
      exact ⟨_, emul f hf (operandsFit_cons.mpr ⟨hrd, operandsFit_cons.mpr ⟨hr1, hfit2⟩⟩)
        (operandsTagged_cons.mpr ⟨ht1, htag2⟩), hres (Fld.mul_ok hwf ha (h.source_ok hf hr2 ht2 Nat.one_pos))⟩
  · obtain ⟨b, hb, hover, rfl⟩ := h.base_of_tower he hf
    exact ⟨b, hb, fun a ha => ⟨Fld.frob_ok (h.field_sound hf).wf ha, frob_fldOver (h.field_sound hb) hover ha⟩⟩
  · obtain ⟨e, -, rfl⟩ := State.fieldOf_eq_some_prime.mp hb
    rfl

/-! ### Inverses (R250, R256) -/

theorem invAllElems_eq_none {g : Fld} {as : List Elem} :
    invAllElems g as = none ↔ ∃ a ∈ as, isZeroElem a = true ∨ g.inv a = none := by
  induction as with
  | nil => simp [invAllElems]
  | cons a rest ih =>
    rw [invAllElems, List.exists_mem_cons_iff, ← ih]
    split
    next hz => simp [hz]
    next hz => cases g.inv a <;> cases invAllElems g rest <;> simp [hz]

/-- What an operand with an inverse looks like, above the modulus 1 (R250). -/
theorem inv_of_hasInverse {g : Fld} (hwf : g.wf = true) (hc : 1 < g.char) {a : Elem} (ha : g.elemOk a = true)
    (hinv : g.HasInverse a) : isZeroElem a = false ∧ ∃ v, g.inv a = some v ∧ g.elemOk v = true ∧ g.mul a v = g.one := by
  obtain ⟨R, _, ⟨m⟩⟩ := Fld.exists_model hwf
  obtain ⟨x, rfl⟩ := m.exists_of_ok ha
  have := m.nontrivial hc
  have hunit := (m.hasInverse x).mp hinv
  have hspec := Fld.invAnswers hwf hc (m.ok x)
  refine ⟨by rw [← Bool.not_eq_true, m.isZero]; exact hunit.ne_zero, ?_⟩
  cases hv : g.inv (m.val x) with
  | none => exact absurd hunit ((m.inv_eq_none hwf hc).mp hv)
  | some v =>
    rw [hv] at hspec
    exact ⟨v, rfl, hspec⟩

theorem not_hasInverse_zero {g : Fld} (hwf : g.wf = true) (hc : 1 < g.char) : ¬ g.HasInverse g.zero := by
  obtain ⟨R, _, ⟨m⟩⟩ := Fld.exists_model hwf
  have := m.nontrivial hc
  rw [m.zero, m.hasInverse]
  exact not_isUnit_zero

/-- Where every element has an inverse, the batch has one list of inverses (R256). -/
theorem invAllElems_of_hasInverse {g : Fld} (hwf : g.wf = true) (hc : 1 < g.char) {as : List Elem}
    (hok : ∀ a ∈ as, g.elemOk a = true) (hinv : ∀ a ∈ as, g.HasInverse a) :
    ∃ vs, invAllElems g as = some vs ∧ List.Forall₂ (fun a v => g.elemOk v = true ∧ g.mul a v = g.one) as vs := by
  induction as with
  | nil => exact ⟨[], rfl, .nil⟩
  | cons a rest ih =>
    obtain ⟨hz, v, hv, hspec⟩ := inv_of_hasInverse hwf hc (hok a List.mem_cons_self) (hinv a List.mem_cons_self)
    obtain ⟨vs, hvs, hall⟩ := ih (fun b hb => hok b (List.mem_cons_of_mem _ hb))
      fun b hb => hinv b (List.mem_cons_of_mem _ hb)
    exact ⟨v :: vs, by simp [invAllElems, hz, hv, hvs], .cons hspec hall⟩

theorem inv_of_not_hasInverse {g : Fld} (hwf : g.wf = true) (hc : 1 < g.char) {a : Elem} (ha : g.elemOk a = true)
    (hinv : ¬ g.HasInverse a) : g.inv a = none := by
  obtain ⟨R, _, ⟨m⟩⟩ := Fld.exists_model hwf
  obtain ⟨x, rfl⟩ := m.exists_of_ok ha
  exact (m.inv_eq_none hwf hc).mpr (mt (m.hasInverse x).mpr hinv)

theorem einv_command (rd rs1 : RegIx) (x : TwrIx) :
    FieldChecks s (.einv rd rs1 x) (s.fieldOf (.tower x)) [(rd, 1), (rs1, 1)] [(rs1, 1)] ∧
      ∀ f, s.fieldOf (.tower x) = some f → OperandsFit f [(rd, 1), (rs1, 1)] → OperandsTagged s f [(rs1, 1)] →
        (f.fld.inv (s.elemAt f rs1.toNat) = none → Faults (.einv rd rs1 x) s .divisionByZero) ∧
        (∀ v, isZeroElem (s.elemAt f rs1.toNat) = false → f.fld.inv (s.elemAt f rs1.toNat) = some v →
          exec (.einv rd rs1 x) s = .next (s.next (s.setElem f rd.toNat v))) := by
  refine ⟨fieldChecks_of_towerBody rfl (fun v => past2_iff v rd rs1) fun v hv => ?_, fun f hf hfit htag => ?_⟩
  · rw [State.needElem_error fun h1 => hv (operandsTagged_cons.mpr ⟨h1, operandsTagged_nil.mpr trivial⟩)]
    rfl
  · have hbody := exec_of_checks (i := .einv rd rs1 x) rfl hf ((past2_iff f rd rs1).mpr hfit)
    rw [State.needElem_ok (operandsTagged_cons.mp htag).1] at hbody
    simp only [bind, Except.bind] at hbody
    refine ⟨fun hnone => faults_of_body hbody ?_, fun v hz hsome => exec_of_body hbody ?_⟩
    · cases hz : isZeroElem (s.elemAt f rs1.toNat) with
      | true => rfl
      | false =>
        simp only [hnone]
        rfl
    · simp only [hz, hsome]
      rfl

/-! ### Writing several elements -/

theorem State.setElems_cons (n : Nat) (a : Elem) (es : List Elem) :
    s.setElems f n (a :: es) = (s.setElem f n a).setElems f (n + f.k) es := rfl

/-- Reading back one of several written elements (R256). -/
theorem State.Inv.elemAt_setElems (h : s.Inv) {x : Tier} (hf : s.fieldOf x = some f) {es : List Elem} :
    ∀ {u : State} {n : Nat}, u.par = s.par → n + es.length * f.k ≤ 64 → (∀ a ∈ es, f.fld.elemOk a = true) →
      (∀ j, (hj : j < es.length) → (u.setElems f n es).elemAt f (n + j * f.k) = es[j]) ∧
        (u.setElems f n es).tagged f n (es.length * f.k) = true := by
  have hk := (h.field_sound hf).k_pos
  induction es with
  | nil =>
    intro u n _ _ _
    exact ⟨fun j hj => absurd hj (Nat.not_lt_zero j), State.tagged_iff.mpr fun j hj => by simp at hj⟩
  | cons a rest ih =>
    intro u n hu hn hok
    rw [List.length_cons, Nat.add_mul, Nat.one_mul] at hn
    obtain ⟨hread, htag⟩ := ih (u := u.setElem f n a) (n := n + f.k) ((State.setElem_par _ _ _ _).trans hu) (by omega)
      fun b hb => hok b (List.mem_cons_of_mem _ hb)
    have hfirst (k : Nat) (hk : k < f.k) :
        ((u.setElem f n a).setElems f (n + f.k) rest).regAt (n + k) = (u.setElem f n a).regAt (n + k) :=
      State.regAt_setElems_of_out (by omega)
    rw [State.setElems_cons]
    constructor
    · intro j hj
      cases j with
      | zero =>
        rw [Nat.zero_mul, Nat.add_zero, State.elemAt_congr (State.setElems_par _ _ _ _) hfirst]
        exact h.elemAt_written hf hu (by omega) (hok a List.mem_cons_self)
      | succ j =>
        rw [show n + (j + 1) * f.k = n + f.k + j * f.k by ring]
        exact hread j (by simpa using hj)
    · rw [State.tagged_iff_block hk] at htag ⊢
      intro i hi j hj
      cases i with
      | zero =>
        rw [Nat.zero_mul, Nat.add_zero, hfirst j hj]
        exact State.tag_setElem (by omega) (by omega)
      | succ i =>
        rw [show n + (i + 1) * f.k + j = n + f.k + i * f.k + j by ring]
        exact htag i (by simpa using hi) j hj

/-! ### EBINV (R256) -/

theorem ebinv_command (rd rs1 : RegIx) (cnt : Field6) (x : TwrIx) :
    FieldChecks s (.ebinv rd rs1 cnt x) (s.fieldOf (.tower x)) [(rs1, cnt.toNat + 1), (rd, cnt.toNat + 1)]
        [(rs1, cnt.toNat + 1)] ∧
      ∀ f, s.fieldOf (.tower x) = some f → OperandsFit f [(rs1, cnt.toNat + 1), (rd, cnt.toNat + 1)] →
        OperandsTagged s f [(rs1, cnt.toNat + 1)] →
        exec (.ebinv rd rs1 cnt x) s = conclude (.ebinv rd rs1 cnt x) s
          (orRaise (invAllElems f.fld (s.elemsAt f rs1.toNat (cnt.toNat + 1))) .divisionByZero >>= fun vs =>
            .ok (s.setElems f rd.toNat vs)) := by
  have hpast (v : FieldView) : (runsPast rs1.toNat ((cnt.toNat + 1) * v.k) || runsPast rd.toNat ((cnt.toNat + 1) * v.k))
      = false ↔ OperandsFit v [(rs1, cnt.toNat + 1), (rd, cnt.toNat + 1)] := by
    simp only [Bool.or_eq_false_iff, runsPast_eq_false, operandsFit_cons, operandsFit_nil, and_true]
  have htagged (v : FieldView) : s.tagged v rs1.toNat ((cnt.toNat + 1) * v.k) = true ↔
      OperandsTagged s v [(rs1, cnt.toNat + 1)] := by
    simp only [operandsTagged_cons, operandsTagged_nil, and_true]
  refine ⟨fieldChecks_of_towerBody rfl hpast fun v hv => ?_, fun f hf hfit htag => ?_⟩
  · rw [← htagged, Bool.not_eq_true] at hv
    simp only [countOf, hv]
    rfl
  · rw [exec_of_checks (i := .ebinv rd rs1 cnt x) rfl hf ((hpast f).mpr hfit)]
    simp only [countOf, (htagged f).mpr htag]
    rfl

/-- Settles O41. -/
theorem towerInverse : Obligations.TowerInverse := by
  intro s h rd rs1 cnt lvl
  obtain ⟨hinv, einv⟩ := einv_command (s := s) rd rs1 lvl
  obtain ⟨hbinv, ebinv⟩ := ebinv_command (s := s) rd rs1 cnt lvl
  refine ⟨hinv, hbinv, fun f hf => ?_⟩
  have hsound := h.field_sound hf
  have hc : 1 < f.fld.char := hsound.char ▸ h.one_lt_of_tower hf
  refine ⟨fun hfit htag => ?_, fun hp u hu hne => ?_, fun hfit htag => ?_⟩
  · obtain ⟨hrd, hfit1⟩ := operandsFit_cons.mp hfit
    have ha := h.source_ok hf (operandsFit_cons.mp hfit1).1 (operandsTagged_cons.mp htag).1 Nat.one_pos
    rw [Nat.one_mul] at hrd
    simp only [Nat.zero_mul, Nat.add_zero]
    refine ⟨fun hz => ?_, fun hno => ?_, fun hyes => ?_⟩
    · exact (einv f hf hfit htag).1 (inv_of_not_hasInverse hsound.wf hc ha (hz ▸ not_hasInverse_zero hsound.wf hc))
    · exact (einv f hf hfit htag).1 (inv_of_not_hasInverse hsound.wf hc ha hno)
    · obtain ⟨hz, v, hv, hok, hone⟩ := inv_of_hasInverse hsound.wf hc ha hyes
      exact ⟨_, v, (einv f hf hfit htag).2 v hz hv, elemResult_setElem h hf hrd hok, hone⟩
  · exact Fld.hasInverse_of_ne_zero hsound.wf (hsound.char ▸ hp) hsound.verified hu hne
  · have hbody := ebinv f hf hfit htag
    obtain ⟨hr1, hfit1⟩ := operandsFit_cons.mp hfit
    have hrd := (operandsFit_cons.mp hfit1).1
    have hok (j : Nat) (hj : j < cnt.toNat + 1) : f.fld.elemOk (s.elemAt f (rs1.toNat + j * f.k)) = true :=
      h.elemAt_ok_block hf hr1 (operandsTagged_cons.mp htag).1 hj
    refine ⟨fun ⟨j, hj, hbad⟩ => faults_of_body hbody ?_, fun hall => ?_⟩
    · have hno : ¬ f.fld.HasInverse (s.elemAt f (rs1.toNat + j * f.k)) := by
        rcases hbad with hz | hno
        · exact mt (congrArg f.fld.HasInverse hz).mp (not_hasInverse_zero hsound.wf hc)
        · exact hno
      have hnone : invAllElems f.fld (s.elemsAt f rs1.toNat (cnt.toNat + 1)) = none := invAllElems_eq_none.mpr
        ⟨_, List.mem_map_of_mem (List.mem_range.mpr hj), .inr (inv_of_not_hasInverse hsound.wf hc (hok j hj) hno)⟩
      rw [hnone]
      rfl
    · obtain ⟨vs, hvs, hforall⟩ := invAllElems_of_hasInverse (as := s.elemsAt f rs1.toNat (cnt.toNat + 1)) hsound.wf hc
        (fun a ha => by
          obtain ⟨j, hj, rfl⟩ := List.mem_map.mp ha
          exact hok j (List.mem_range.mp hj))
        (fun a ha => by
          obtain ⟨j, hj, rfl⟩ := List.mem_map.mp ha
          exact hall j (List.mem_range.mp hj))
      have hlen : vs.length = cnt.toNat + 1 := by
        rw [← hforall.length_eq]
        simp [State.elemsAt]
      have hspec (j : Nat) (hj : j < vs.length) :
          f.fld.elemOk vs[j] = true ∧ f.fld.mul (s.elemAt f (rs1.toNat + j * f.k)) vs[j] = f.fld.one := by
        simpa [State.elemsAt] using hforall.get (i := j) (by simpa [State.elemsAt, hlen] using hj) hj
      have hvsok : ∀ a ∈ vs, f.fld.elemOk a = true := by
        intro a ha
        obtain ⟨j, hj, rfl⟩ := List.getElem_of_mem ha
        exact (hspec j hj).1
      obtain ⟨hread, htagged⟩ := h.elemAt_setElems hf (u := s) (n := rd.toNat) rfl (hlen ▸ hrd) hvsok
      rw [hlen] at htagged
      refine ⟨_, exec_of_body hbody (by rw [hvs]; rfl), onlyRegisters_next (regsOnly_setElems f _ _) fun n hn => ?_, htagged,
        fun j hj => ?_⟩
      · exact State.regAt_setElems_of_out (by rwa [hlen])
      · rw [State.next_elemAt, hread j (hlen ▸ hj)]
        exact (hspec j (hlen ▸ hj)).2

end Sys2Proof.Machine
end

section
/-! What the commands that write registers and flags alone make of a state: one lemma for all of them, from which their frame
(O14) and their part of the invariant (O9) follow. -/

namespace Sys2Proof.Machine

/-- The context of a field in use is valid and is the one the field carries (R25). -/
def InUse (s : State) (f : FieldView) : Prop := s.ctxAt f.root = some f.ctx

/-- `t` is `s` but for its flags and the `count` registers from `first` on, and its registers are sound where `s` is. -/
structure Update (first count : Nat) (s t : State) : Prop where
  rest : t = { s with x := t.x, c := t.c, z := t.z, l := t.l, t := t.t }
  outside : ∀ n, (n < first ∨ first + count ≤ n) → t.regAt n = s.regAt n
  regs : s.Inv → t.allRegs

section
variable {s t : State} {f : FieldView} {first count : Nat}

theorem InUse.pos (h : s.Inv) (hf : InUse s f) : 0 < f.ctx.m :=
  Ctx.admitted_pos (Ctx.sound_admitted (h.ctx_sound hf))

theorem Update.of_regsOnly (h : RegsOnly s t) (hout : ∀ n, (n < first ∨ first + count ≤ n) → t.regAt n = s.regAt n)
    (hregs : s.Inv → t.allRegs) : Update first count s t := by
  refine ⟨?_, hout, hregs⟩
  rw [h.eq]

theorem Update.same : Update first count s s := .of_regsOnly (.refl s) (fun _ _ => rfl) fun h => h.regs

theorem Update.setRaw {r : RegIx} {v : Nat} : Update r.toNat 1 s (s.setRaw r v) :=
  .of_regsOnly (regsOnly_setRaw r v) (fun n hn => by rw [State.regAt_setRaw, if_neg (by omega)])
    fun h => State.allRegs_setRaw h.regs

theorem Update.setFp {r : RegIx} {a : Nat} (hf : InUse s f) : Update r.toNat 1 s (s.setFp f r a) :=
  .of_regsOnly (regsOnly_setFp f r a) (fun n hn => by rw [State.setFp, State.regAt_setReg, if_neg (by omega)])
    fun h => State.allRegs_setFp h.regs hf (hf.pos h)

theorem Update.setRegs {n : Nat} {rs : List Reg} (hlen : rs.length = count)
    (hrs : s.Inv → ∀ r ∈ rs, s.regSound { val := r.val % 2 ^ s.par.bits, tag := r.tag } = true) :
    Update n count s (s.setRegs n rs) :=
  .of_regsOnly (regsOnly_setRegs n rs) (fun k hk => by rw [State.regAt_setRegs, if_neg (by omega)])
    fun h => State.allRegs_setRegs h.regs (hrs h)

theorem Update.setElem {n : Nat} {a : Elem} (hf : InUse s f) (hk : f.k = count) : Update n count s (s.setElem f n a) :=
  .of_regsOnly (regsOnly_setElem f n a) (fun _ hn => State.regAt_setElem_of_out (by omega))
    fun h => State.allRegs_setElem h.regs hf (hf.pos h)

theorem Update.setElems {n : Nat} {es : List Elem} (hf : InUse s f) (hk : es.length * f.k = count) :
    Update n count s (s.setElems f n es) :=
  .of_regsOnly (regsOnly_setElems f n es) (fun _ hn => State.regAt_setElems_of_out (by omega))
    fun h => State.allRegs_setElems h.regs hf (hf.pos h)

theorem Update.setPair {n : Nat} {p : Elem × Elem} (hf : InUse s f) (hk : 2 * f.k = count) :
    Update n count s (s.setPair f n p) :=
  .of_regsOnly (regsOnly_setPair f n p) (fun _ hn => State.regAt_setPair_of_out (by omega))
    fun h => State.allRegs_setPair h.regs hf (hf.pos h)

theorem Update.setPoint {n : Nat} {p : JPoint} (hf : InUse s f) (hk : 3 * f.k = count) :
    Update n count s (s.setPoint f n p) :=
  .of_regsOnly (regsOnly_setPoint f n p) (fun _ hn => State.regAt_setPoint_of_out (by omega))
    fun h => State.allRegs_setPoint h.regs hf (hf.pos h)

/-- A write of flags after an update. -/
theorem Update.flags {c z l b : Bool} (h : Update first count s t) :
    Update first count s { t with c := c, z := z, l := l, t := b } := by
  refine ⟨?_, h.outside, fun hs => State.allRegs_congr (s := t) rfl rfl rfl (h.regs hs)⟩
  rw [h.rest]

theorem Update.setC {b : Bool} (h : Update first count s t) : Update first count s (t.setC b) := h.flags
theorem Update.setZL {z l : Bool} (h : Update first count s t) : Update first count s (t.setZL z l) := h.flags
theorem Update.setT {b : Bool} (h : Update first count s t) : Update first count s (t.setT b) := h.flags

/-! ### Bodies -/

variable {i : Instr} {α : Type}

/-- Where the body `a` of command `i` completes, it updates the destination of the command. -/
def UpdatesTo (i : Instr) (s : State) (a : Attempt State) : Prop :=
  ∀ t, a = .ok t → Update (s.destination i).1 (s.destination i).2 s t

theorem UpdatesTo.ok (h : Update (s.destination i).1 (s.destination i).2 s t) : UpdatesTo i s (.ok t) := by
  rintro _ ⟨⟩
  exact h

theorem UpdatesTo.bind {x : Attempt α} {f : α → Attempt State} (h : ∀ a, x = .ok a → UpdatesTo i s (f a)) :
    UpdatesTo i s (x >>= f) := by
  intro t ht
  obtain ⟨a, hx, hf⟩ := Attempt.bind_eq_ok.mp ht
  exact h a hx t hf

/-- A check or a read whose answer does not matter to the update. -/
theorem UpdatesTo.after {x : Attempt α} {f : α → Attempt State} (h : ∀ a, UpdatesTo i s (f a)) :
    UpdatesTo i s (x >>= f) := .bind fun a _ => h a

/-- The answer of a command whose body updates its destination: the update with PC advanced, or fault entry. -/
def AnswersUpdate (i : Instr) (s t : State) : Prop :=
  (∃ u, Update (s.destination i).1 (s.destination i).2 s u ∧ t = s.next u) ∨ ∃ k info, t = s.faulted k info

theorem answersUpdate_of_conclude {a : Attempt State} (ha : UpdatesTo i s a) (h : conclude i s a = .next t) :
    AnswersUpdate i s t := by
  rcases conclude_next h with ⟨u, hu, rfl⟩ | ⟨tr, -, rfl⟩
  · exact .inl ⟨u, ha u hu, rfl⟩
  · exact .inr (s.takeTrap_eq (encode i) tr)

/-! ### Fields in use -/

theorem inUse_of_needCtx {c : CtxIx} {e : Ctx} (h : s.needCtx c = .ok e) : InUse s (primeView c e) :=
  State.needCtx_eq_ok.mp h

theorem inUse_of_needFp {r : RegIx} (h : s.needFp r = .ok f) : InUse s f := by
  obtain ⟨c, e, -, he, rfl⟩ := State.needFp_eq_ok.mp h
  exact he

theorem inUse_of_needTower {x : TwrIx} (h : s.needTower x = .ok f) : InUse s f :=
  State.fieldOf_root (State.needTower_eq_ok.mp h)

theorem towerDegree_of_needTower {x : TwrIx} (h : s.needTower x = .ok f) : f.k = s.towerDegree x := by
  simp only [State.towerDegree, State.needTower_eq_ok.mp h]

theorem State.curveOf_field {n : CrvIx} {v : CurveView} (h : s.curveOf n = some v) :
    s.crvAt n = some v.crv ∧ s.fieldOf v.crv.fd = some v.fv := by
  simp only [State.curveOf] at h
  split at h
  · cases h
  next e he =>
    split at h
    · cases h
    next g hg =>
      cases h
      exact ⟨he, hg⟩

theorem inUse_of_needCurve {n : CrvIx} {v : CurveView} (h : s.needCurve n = .ok v) : InUse s v.fv :=
  State.fieldOf_root (State.curveOf_field (State.needCurve_eq_ok.mp h)).2

theorem curveDegree_of_needCurve {n : CrvIx} {v : CurveView} (h : s.needCurve n = .ok v) : v.fv.k = s.curveDegree n := by
  simp only [State.curveDegree, State.needCurve_eq_ok.mp h]

theorem State.pairingOf_parts {v : PairingView} (h : s.pairingOf = some v) :
    s.prg = some v.prg ∧ s.curveOf v.prg.g1 = some v.g1 ∧ s.curveOf v.prg.g2 = some v.g2 ∧
      s.fieldOf (.tower v.prg.twr) = some v.gt := by
  simp only [State.pairingOf] at h
  split at h
  · cases h
  next e he =>
    split at h
    next c1 c2 gt h1 h2 h3 =>
      cases h
      exact ⟨he, h1, h2, h3⟩
    · cases h

theorem inUse_of_needPairing {v : PairingView} (h : s.needPairing = .ok v) : InUse s v.gt :=
  State.fieldOf_root (State.pairingOf_parts (State.needPairing_eq_ok.mp h)).2.2.2

theorem gtDegree_of_needPairing {v : PairingView} (h : s.needPairing = .ok v) : v.gt.k = s.gtDegree := by
  simp only [State.gtDegree, State.needPairing_eq_ok.mp h]

/-! ### Updates by a field in use -/

theorem Update.towerElem {x : TwrIx} {n : Nat} {a : Elem} (hf : s.needTower x = .ok f) :
    Update n (s.towerDegree x) s (s.setElem f n a) := .setElem (inUse_of_needTower hf) (towerDegree_of_needTower hf)

theorem Update.curvePoint {x : CrvIx} {v : CurveView} {n : Nat} {p : JPoint} (hv : s.needCurve x = .ok v) :
    Update n (3 * s.curveDegree x) s (s.setPoint v.fv n p) :=
  .setPoint (inUse_of_needCurve hv) (congrArg (3 * ·) (curveDegree_of_needCurve hv))

theorem Update.curvePair {x : CrvIx} {v : CurveView} {n : Nat} {p : Elem × Elem} (hv : s.needCurve x = .ok v) :
    Update n (2 * s.curveDegree x) s (s.setPair v.fv n p) :=
  .setPair (inUse_of_needCurve hv) (congrArg (2 * ·) (curveDegree_of_needCurve hv))

theorem Update.gtElem {v : PairingView} {n : Nat} {a : Elem} (hv : s.needPairing = .ok v) :
    Update n s.gtDegree s (s.setElem v.gt n a) := .setElem (inUse_of_needPairing hv) (gtDegree_of_needPairing hv)

theorem UpdatesTo.elemBinary {rd rs1 rs2 : RegIx} {x : TwrIx} {op : Fld → Elem → Elem → Elem}
    (hd : s.destination i = (rd.toNat, s.towerDegree x)) : UpdatesTo i s (s.elemBinary rd rs1 rs2 x op) := by
  refine .bind fun f hf => .after fun _ => .after fun _ => .after fun _ => .ok ?_
  rw [hd]
  exact .towerElem hf

theorem UpdatesTo.elemUnary {rd rs1 : RegIx} {x : TwrIx} {op : Fld → Elem → Elem}
    (hd : s.destination i = (rd.toNat, s.towerDegree x)) : UpdatesTo i s (s.elemUnary rd rs1 x op) := by
  refine .bind fun f hf => .after fun _ => .after fun _ => .ok ?_
  rw [hd]
  exact .towerElem hf

theorem invAllElems_length {g : Fld} {as vs : List Elem} (h : invAllElems g as = some vs) : vs.length = as.length := by
  induction as generalizing vs with
  | nil => cases h; rfl
  | cons a rest ih =>
    rw [invAllElems] at h
    split at h
    · cases h
    · split at h
      next v us hv hus => cases h; simp [ih hus]
      · cases h

theorem State.regSound_regAt (h : s.Inv) (n : Nat) :
    s.regSound { val := (s.regAt n).val % 2 ^ s.par.bits, tag := (s.regAt n).tag } = true := by
  by_cases hn : n < 64
  · have hreg := h.regs (BitVec.ofNat 6 n)
    rw [show (BitVec.ofNat 6 n).toNat = n by simp; omega] at hreg
    have hlt := h.regAt_lt n
    rwa [Nat.mod_eq_of_lt hlt]
  · simp [State.regAt, hn, State.regSound]

end

/-! ### The commands -/

/-- The commands that may change registers and flags alone, and PC. -/
def writesRegistersOnly : Instr → Bool
  | .halt | .jmp _ | .bs _ _ | .bc _ _ | .st _ _ _ | .setal _ | .setah _ | .mul _ _ | .csrw _ _ | .ctxdef _ _ _
  | .twrdef _ _ _ _ _ | .crvdef _ _ _ _ _ | .prgdef _ _ _ _ _ _ | .precg1 _ _ | .precg2 _ _ | .fenc _ _
  | .wnafenc _ _ _ _ => false
  | _ => true

/-- The cases are the shapes of a body: how many checks and reads it makes, and what it writes. -/
theorem exec_answersUpdate {i : Instr} {s t : State} (hi : writesRegistersOnly i = true) (h : exec i s = .next t) :
    AnswersUpdate i s t := by
  cases i with
  | halt | jmp | bs | bc | st | setal | setah | mul | csrw | ctxdef | twrdef | crvdef | prgdef | precg1 | precg2 | fenc |
    wnafenc => cases hi
  | nop => exact answersUpdate_of_conclude (.ok .same) h
  | li | moval | movah | bitlen => exact answersUpdate_of_conclude (.ok .setRaw) h
  | add | sub | shl1 | shr1 | shl | shr => exact answersUpdate_of_conclude (.ok (.setC .setRaw)) h
  | cmp => exact answersUpdate_of_conclude (.ok (.setZL .same)) h
  | btst => exact answersUpdate_of_conclude (.ok (.setT .same)) h
  | ld | csrr => exact answersUpdate_of_conclude (.after fun _ => .ok .setRaw) h
  | ftoi => exact answersUpdate_of_conclude (.after fun _ => .ok .setRaw) h
  | jacobi => exact answersUpdate_of_conclude (.after fun _ => .ok (.setZL .setRaw)) h
  | modadd | modsub | modmul | modpow => exact answersUpdate_of_conclude (.after fun _ => .after fun _ => .ok .setRaw) h
  | redc | bred | modinv =>
    exact answersUpdate_of_conclude (.after fun _ => .after fun _ => .after fun _ => .ok .setRaw) h
  | wnafdec =>
    exact answersUpdate_of_conclude (.after fun _ => .after fun _ => .after fun _ => .after fun _ => .ok .setRaw) h
  | mov =>
    exact answersUpdate_of_conclude (.after fun _ => .ok (.setRegs ((List.length_map _).trans List.length_range)
      fun hs r hr => by
        obtain ⟨j, -, rfl⟩ := List.mem_map.mp hr
        exact State.regSound_regAt hs _)) h
  | fzero | fone => exact answersUpdate_of_conclude (.bind fun _ he => .ok (.setFp (inUse_of_needCtx he))) h
  | ffromi => exact answersUpdate_of_conclude (.bind fun _ he => .after fun _ => .ok (.setFp (inUse_of_needCtx he))) h
  | fdec =>
    exact answersUpdate_of_conclude (.bind fun _ he => .after fun _ => .after fun _ =>
      .ok (.setFp (inUse_of_needCtx he))) h
  | fneg | fsqr => exact answersUpdate_of_conclude (.bind fun _ hf => .ok (.setFp (inUse_of_needFp hf))) h
  | fadd | fsub | fmul | finv | fpow =>
    exact answersUpdate_of_conclude (.bind fun _ hf => .after fun _ => .ok (.setFp (inUse_of_needFp hf))) h
  | fsqrt =>
    refine answersUpdate_of_conclude (.bind fun f hf => ?_) h
    split
    · exact .ok (.setT .same)
    · exact .ok (.setT (.setFp (inUse_of_needFp hf)))
  | fisz => exact answersUpdate_of_conclude (.after fun _ => .ok (.setT .same)) h
  | feq => exact answersUpdate_of_conclude (.after fun _ => .after fun _ => .ok (.setT .same)) h
  | fbinv =>
    refine answersUpdate_of_conclude (.after fun _ => .bind fun f hf => .after fun _ => .after fun _ =>
      .ok (.setRegs ((List.length_map _).trans List.length_range) fun hs r hr => ?_)) h
    obtain ⟨j, -, rfl⟩ := List.mem_map.mp hr
    exact State.regSound_rep (inUse_of_needFp hf) ((inUse_of_needFp hf).pos hs) _
  | ezero | eone =>
    exact answersUpdate_of_conclude (.bind fun _ hf => .after fun _ =>
      .ok (.towerElem hf)) h
  | eadd | esub | emul => exact answersUpdate_of_conclude (.elemBinary rfl) h
  | eneg | esqr | efrob => exact answersUpdate_of_conclude (.elemUnary rfl) h
  | epow | econj =>
    exact answersUpdate_of_conclude (.bind fun _ hf => .after fun _ => .after fun _ => .after fun _ =>
      .ok (.towerElem hf)) h
  | einv =>
    exact answersUpdate_of_conclude (.bind fun _ hf => .after fun _ => .after fun _ => .after fun _ => .after fun _ =>
      .ok (.towerElem hf)) h
  | ebinv rd rs1 cnt x =>
    refine answersUpdate_of_conclude (.bind fun f hf => .after fun _ => .after fun _ => .bind fun vs hvs =>
      .ok (.setElems (inUse_of_needTower hf) ?_)) h
    have hlen : vs.length = countOf cnt := by
      rw [invAllElems_length (orRaise_eq_ok.mp hvs), State.elemsAt, List.length_map, List.length_range]
    rw [hlen, towerDegree_of_needTower hf]
    rfl
  | eisz | pisinf | ponc =>
    exact answersUpdate_of_conclude (.after fun _ => .after fun _ => .after fun _ => .ok (.setT .same)) h
  | eeq | peq =>
    exact answersUpdate_of_conclude (.after fun _ => .after fun _ => .after fun _ => .after fun _ =>
      .ok (.setT .same)) h
  | pinf =>
    exact answersUpdate_of_conclude (.bind fun _ hv => .after fun _ =>
      .ok (.curvePoint hv)) h
  | pdbl | pneg =>
    exact answersUpdate_of_conclude (.bind fun _ hv => .after fun _ => .after fun _ =>
      .ok (.curvePoint hv)) h
  | plift | padd | pmadd =>
    exact answersUpdate_of_conclude (.bind fun _ hv => .after fun _ => .after fun _ => .after fun _ =>
      .ok (.curvePoint hv)) h
  | psmul =>
    exact answersUpdate_of_conclude (.bind fun _ hv => .after fun _ => .after fun _ => .after fun _ => .after fun _ =>
      .ok (.curvePoint hv)) h
  | psmul2 =>
    exact answersUpdate_of_conclude (.bind fun _ hv => .after fun _ => .after fun _ => .after fun _ => .after fun _ =>
      .after fun _ => .after fun _ => .ok (.curvePoint hv)) h
  | paff =>
    exact answersUpdate_of_conclude (.bind fun _ hv => .after fun _ => .after fun _ => .after fun _ =>
      .ok (.curvePair hv)) h
  | fexp =>
    exact answersUpdate_of_conclude (.bind fun _ hv => .after fun _ => .after fun _ =>
      .ok (.gtElem hv)) h
  | mloop =>
    exact answersUpdate_of_conclude (.bind fun _ hv => .after fun _ => .after fun _ => .after fun _ =>
      .ok (.gtElem hv)) h
  | dmloop =>
    exact answersUpdate_of_conclude (.bind fun _ hv => .after fun _ => .after fun _ => .after fun _ => .after fun _ =>
      .ok (.gtElem hv)) h
  | rpair =>
    exact answersUpdate_of_conclude (.bind fun _ hv => .after fun _ => .after fun _ => .after fun _ => .after fun _ =>
      .after fun _ => .after fun _ => .ok (.gtElem hv)) h

end Sys2Proof.Machine
end

section
/-! What every command leaves (R10, R23, R26 to R35, R45, R85), and that a valid table entry is written once (R31 to R34). -/

namespace Sys2Proof.Machine

/-! ### Memory in any form -/

/-- A cell reads what was written to it and every other cell what it held, whatever the form of the memory. -/
theorem Memory.lookup_store_any {α : Type} (m : List (Nat × α)) (a : Nat) (v : α) (b : Nat) :
    Memory.lookup (Memory.store m a v) b = if b = a then some v else Memory.lookup m b := by
  induction m with
  | nil => rfl
  | cons e rest ih =>
    obtain ⟨c, u⟩ := e
    rw [Memory.store]
    split
    · rfl
    · split
      next hac =>
        subst hac
        simp only [Memory.lookup]
        split <;> rfl
      next hac =>
        rw [Memory.lookup, ih]
        by_cases hbc : b = c
        · rw [if_pos hbc, if_neg (by omega), Memory.lookup, if_pos hbc]
        · rw [if_neg hbc, Memory.lookup, if_neg hbc]

theorem Memory.lookup_storeAll_of_out {α : Type} {m : List (Nat × α)} {a b : Nat} {vs : List α}
    (h : b < a ∨ a + vs.length ≤ b) : Memory.lookup (Memory.storeAll m a vs) b = Memory.lookup m b := by
  induction vs generalizing m a with
  | nil => rfl
  | cons v rest ih =>
    rw [List.length_cons] at h
    rw [Memory.storeAll, ih (by omega), Memory.lookup_store_any, if_neg (by omega)]

theorem State.byteAt_putBytes_of_out {s : State} {addr a : Nat} {bytes : List Byte}
    (h : a < addr ∨ addr + bytes.length ≤ a) : (s.putBytes addr bytes).byteAt a = s.byteAt a := by
  simp only [State.byteAt, State.putBytes, Memory.lookup_storeAll_of_out h]

theorem mem_addressRange {addr n a : Nat} : a ∈ addressRange addr n ↔ addr ≤ a ∧ a < addr + n := by
  simp only [addressRange, List.mem_map, List.mem_range]
  exact ⟨fun ⟨j, hj, h⟩ => by omega, fun h => ⟨a - addr, by omega, by omega⟩⟩

/-! ### The frame of a command -/

/-- What command `i` leaves of `s` in `t`, but for flags, PC and the fault registers. -/
structure Frame (i : Instr) (s t : State) : Prop where
  regs : ∀ n, (n < (s.destination i).1 ∨ (s.destination i).1 + (s.destination i).2 ≤ n) → t.regAt n = s.regAt n
  bytes : ∀ a, a ∉ s.targetBytes i → t.byteAt a = s.byteAt a
  acc : t.acc = s.acc ∨ (∃ a b, i = .mul a b) ∨ (∃ a, i = .setal a) ∨ ∃ a, i = .setah a
  wnafw : t.wnafw = s.wnafw ∨ ∃ r, i = .csrw r 7#18
  ie : t.ie = s.ie
  par : t.par = s.par
  cm : t.cm = s.cm
  fresh : t.fresh = s.fresh
  ctx : ∀ c, t.ctxAt c = s.ctxAt c ∨ ∃ r st, i = .ctxdef c r st
  twr : ∀ n, t.twrAt n = s.twrAt n ∨ ∃ a b d f, i = .twrdef n a b d f
  crv : ∀ n, t.crvAt n = s.crvAt n ∨ ∃ a b d f, i = .crvdef n a b d f
  prg : t.prg = s.prg ∨ ∃ a b c d e f, i = .prgdef a b c d e f
  pre : ∀ n, t.preAt n = s.preAt n ∨ (∃ r, i = .precg1 n r) ∨ ∃ r, i = .precg2 n r

section
variable {i : Instr} {s t : State}

/-- A state that differs in registers outside the frame, flags, PC and fault registers alone. -/
theorem Frame.of_rest
    (h : t =
      { s with
        x := t.x, c := t.c, z := t.z, l := t.l, t := t.t, pc := t.pc, run := t.run, err := t.err, epc := t.epc,
        einfo := t.einfo })
    (hregs : ∀ n, (n < (s.destination i).1 ∨ (s.destination i).1 + (s.destination i).2 ≤ n) → t.regAt n = s.regAt n) :
    Frame i s t := by
  rw [h] at hregs ⊢
  exact ⟨hregs, fun _ _ => rfl, .inl rfl, .inl rfl, rfl, rfl, rfl, rfl, fun _ => .inl rfl, fun _ => .inl rfl,
    fun _ => .inl rfl, .inl rfl, fun _ => .inl rfl⟩

theorem Frame.refl : Frame i s s := .of_rest rfl fun _ _ => rfl

theorem Frame.faulted (k : FaultKind) (info : Word) : Frame i s (s.faulted k info) := .of_rest rfl fun _ _ => rfl

theorem Frame.of_update (h : Update (s.destination i).1 (s.destination i).2 s t) : Frame i s t := by
  refine .of_rest ?_ h.outside
  rw [h.rest]

/-- PC is outside the frame. -/
theorem Frame.next (h : Frame i s t) : Frame i s (s.next t) :=
  ⟨h.regs, h.bytes, h.acc, h.wnafw, h.ie, h.par, h.cm, h.fresh, h.ctx, h.twr, h.crv, h.prg, h.pre⟩

theorem Frame.setRaw {r : RegIx} {v : Nat} (hd : s.destination i = (r.toNat, 1)) (h : Frame i s t) :
    Frame i s (t.setRaw r v) := by
  refine ⟨fun n hn => ?_, h.bytes, h.acc, h.wnafw, h.ie, h.par, h.cm, h.fresh, h.ctx, h.twr, h.crv, h.prg, h.pre⟩
  rw [State.regAt_setRaw, if_neg (by rw [hd] at hn; omega)]
  exact h.regs n hn

theorem Frame.putBytes {addr : Nat} {bytes : List Byte}
    (h : ∀ a, addr ≤ a → a < addr + bytes.length → a ∈ s.targetBytes i) : Frame i s (s.putBytes addr bytes) := by
  refine ⟨fun _ _ => rfl, fun a ha => State.byteAt_putBytes_of_out ?_, .inl rfl, .inl rfl, rfl, rfl, rfl, rfl,
    fun _ => .inl rfl, fun _ => .inl rfl, fun _ => .inl rfl, .inl rfl, fun _ => .inl rfl⟩
  by_contra hin
  exact ha (h a (by omega) (by omega))

/-! ### Bodies -/

/-- Where the body `a` of command `i` completes, it keeps the command's frame. -/
def KeepsFrame (i : Instr) (s : State) (a : Attempt State) : Prop := ∀ t, a = .ok t → Frame i s t

theorem KeepsFrame.ok (h : Frame i s t) : KeepsFrame i s (.ok t) := by
  rintro _ ⟨⟩
  exact h

theorem KeepsFrame.bind {α : Type} {x : Attempt α} {f : α → Attempt State} (h : ∀ a, x = .ok a → KeepsFrame i s (f a)) :
    KeepsFrame i s (x >>= f) := by
  intro t ht
  obtain ⟨a, hx, hf⟩ := Attempt.bind_eq_ok.mp ht
  exact h a hx t hf

theorem KeepsFrame.after {α : Type} {x : Attempt α} {f : α → Attempt State} (h : ∀ a, KeepsFrame i s (f a)) :
    KeepsFrame i s (x >>= f) := .bind fun a _ => h a

theorem frame_of_conclude {a : Attempt State} (ha : KeepsFrame i s a) (h : conclude i s a = .next t) : Frame i s t := by
  rcases conclude_next h with ⟨u, hu, rfl⟩ | ⟨tr, -, rfl⟩
  · exact (ha u hu).next
  · obtain ⟨k, info, heq⟩ := s.takeTrap_eq (encode i) tr
    rw [heq]
    exact .faulted k info

/-! ### The tables -/

theorem Frame.setCtx {c : CtxIx} {r : RegIx} {st : Strategy} {e : Ctx} : Frame (.ctxdef c r st) s (s.setCtx c e) := by
  refine ⟨fun _ _ => rfl, fun _ _ => rfl, .inl rfl, .inl rfl, rfl, rfl, rfl, rfl, fun k => ?_, fun _ => .inl rfl,
    fun _ => .inl rfl, .inl rfl, fun _ => .inl rfl⟩
  by_cases hk : k = c
  · exact .inr ⟨r, st, by rw [hk]⟩
  · exact .inl (by rw [State.ctxAt_setCtx, if_neg hk])

theorem Frame.setTwr {n : TwrIx} {a b : RegIx} {d : Degree} {f : FieldSel} {e : Twr} :
    Frame (.twrdef n a b d f) s (s.setTwr n e) := by
  refine ⟨fun _ _ => rfl, fun _ _ => rfl, .inl rfl, .inl rfl, rfl, rfl, rfl, rfl, fun _ => .inl rfl, fun k => ?_,
    fun _ => .inl rfl, .inl rfl, fun _ => .inl rfl⟩
  by_cases hk : k = n
  · exact .inr ⟨a, b, d, f, by rw [hk]⟩
  · exact .inl (by rw [State.twrAt_setTwr, if_neg hk])

theorem Frame.setCrv {n : CrvIx} {a b : RegIx} {d : BitVec 2} {f : FieldSel} {e : Crv} :
    Frame (.crvdef n a b d f) s (s.setCrv n e) := by
  refine ⟨fun _ _ => rfl, fun _ _ => rfl, .inl rfl, .inl rfl, rfl, rfl, rfl, rfl, fun _ => .inl rfl, fun _ => .inl rfl,
    fun k => ?_, .inl rfl, fun _ => .inl rfl⟩
  by_cases hk : k = n
  · exact .inr ⟨a, b, d, f, by rw [hk]⟩
  · exact .inl (by rw [State.crvAt_setCrv, if_neg hk])

theorem Frame.setPrg {a b : CrvIx} {c : Bool} {d e : RegIx} {f : TwrIx} {p : Prg} :
    Frame (.prgdef a b c d e f) s (s.setPrg p) :=
  ⟨fun _ _ => rfl, fun _ _ => rfl, .inl rfl, .inl rfl, rfl, rfl, rfl, rfl, fun _ => .inl rfl, fun _ => .inl rfl,
    fun _ => .inl rfl, .inr ⟨a, b, c, d, e, f, rfl⟩, fun _ => .inl rfl⟩

theorem Frame.setPre {n : SlotIx} {e : Pre} (hi : (∃ r, i = .precg1 n r) ∨ ∃ r, i = .precg2 n r) :
    Frame i s (s.setPre n e) := by
  refine ⟨fun _ _ => rfl, fun _ _ => rfl, .inl rfl, .inl rfl, rfl, rfl, rfl, rfl, fun _ => .inl rfl, fun _ => .inl rfl,
    fun _ => .inl rfl, .inl rfl, fun k => ?_⟩
  by_cases hk : k = n
  · exact .inr (hk ▸ hi)
  · exact .inl (by rw [State.preAt_setPre, if_neg hk])

end

/-! ### The commands -/

section
variable {i : Instr} {s t : State}

theorem keepsFrame_st (rd rs1 : RegIx) (imm : Imm12) :
    KeepsFrame (.st rd rs1 imm) s (s.writeMem (s.val rs1 + imm.toNat) (leBytes (s.val rd) s.regBytes)) := by
  intro t ht
  obtain ⟨hadm, rfl⟩ := State.writeMem_eq_ok.mp ht
  rw [leBytes_length] at hadm
  refine .putBytes fun a h1 h2 => ?_
  rw [leBytes_length] at h2
  simp only [State.targetBytes, hadm, if_true, mem_addressRange]
  exact ⟨h1, h2⟩

theorem keepsFrame_fenc (rd rs1 : RegIx) :
    KeepsFrame (.fenc rd rs1) s
      (s.needFp rd >>= fun f => s.writeMem (s.val rs1) (beBytes (s.fpVal f rd) f.ctx.encodedBytes)) := by
  refine .bind fun f hf t ht => ?_
  obtain ⟨hadm, rfl⟩ := State.writeMem_eq_ok.mp ht
  rw [beBytes_length] at hadm
  refine .putBytes fun a h1 h2 => ?_
  rw [beBytes_length] at h2
  simp only [State.targetBytes, hf, hadm, if_true, mem_addressRange]
  exact ⟨h1, h2⟩

theorem exec_frame_wnafenc {rd rs1 rs2 : RegIx} {w : BitVec 4} (h : exec (.wnafenc rd rs1 rs2 w) s = .next t) :
    Frame (.wnafenc rd rs1 rs2 w) s t := by
  refine frame_of_conclude (.bind fun _ hw => .bind fun k hk => .bind fun u hu => .ok (.setRaw rfl ?_)) h
  rw [raiseIf_eq_ok, decide_eq_false_iff_not] at hw
  obtain ⟨hraw, rfl⟩ := State.needRaw_eq_ok.mp hk
  obtain ⟨hadm, rfl⟩ := State.writeMem_eq_ok.mp hu
  rw [digitsBytes_length] at hadm
  refine .putBytes fun a h1 h2 => ?_
  rw [digitsBytes_length] at h2
  simp only [State.targetBytes, ne_eq, hw, not_false_eq_true, hraw, hadm, and_self, if_true, mem_addressRange]
  exact ⟨h1, h2⟩

theorem exec_frame_csrw {rd : RegIx} {csr : Imm18} (h : exec (.csrw rd csr) s = .next t) : Frame (.csrw rd csr) s t := by
  refine frame_of_conclude (.bind fun _ hw => .after fun _ => ?_) h
  rw [raiseIf_eq_ok, Bool.not_eq_false', csrWritable_iff] at hw
  split
  · exact .after fun _ => .ok (.of_rest rfl fun _ _ => rfl)
  next h6 =>
    refine .after fun _ => .ok ?_
    obtain rfl : csr = 7#18 := BitVec.eq_of_toNat_eq (hw.resolve_left h6)
    exact ⟨fun _ _ => rfl, fun _ _ => rfl, .inl rfl, .inr ⟨rd, rfl⟩, rfl, rfl, rfl, rfl, fun _ => .inl rfl,
      fun _ => .inl rfl, fun _ => .inl rfl, .inl rfl, fun _ => .inl rfl⟩

/-- ACC belongs to MUL, SETAL and SETAH (R26). -/
theorem Frame.setAcc {v : Nat} (hi : (∃ a b, i = .mul a b) ∨ (∃ a, i = .setal a) ∨ ∃ a, i = .setah a) :
    Frame i s { s with acc := v } :=
  ⟨fun _ _ => rfl, fun _ _ => rfl, .inr hi, .inl rfl, rfl, rfl, rfl, rfl, fun _ => .inl rfl, fun _ => .inl rfl,
    fun _ => .inl rfl, .inl rfl, fun _ => .inl rfl⟩

/-- Every command keeps its frame. -/
theorem exec_frame {i : Instr} {s t : State} (h : exec i s = .next t) : Frame i s t := by
  by_cases hi : writesRegistersOnly i = true
  · rcases exec_answersUpdate hi h with ⟨u, hu, rfl⟩ | ⟨k, info, rfl⟩
    · exact (Frame.of_update hu).next
    · exact .faulted k info
  · cases i with
    | halt | jmp | bs | bc => cases h; exact .of_rest rfl fun _ _ => rfl
    | setal => exact frame_of_conclude (.ok (.setAcc (.inr (.inl ⟨_, rfl⟩)))) h
    | setah => exact frame_of_conclude (.ok (.setAcc (.inr (.inr ⟨_, rfl⟩)))) h
    | mul => exact frame_of_conclude (.ok (.setAcc (.inl ⟨_, _, rfl⟩))) h
    | st rd rs1 imm => exact frame_of_conclude (keepsFrame_st rd rs1 imm) h
    | fenc rd rs1 => exact frame_of_conclude (keepsFrame_fenc rd rs1) h
    | wnafenc => exact exec_frame_wnafenc h
    | csrw => exact exec_frame_csrw h
    | ctxdef => exact frame_of_conclude (.after fun _ => .after fun _ => .after fun _ => .ok .setCtx) h
    | twrdef =>
      exact frame_of_conclude (.after fun _ => .after fun _ => .after fun _ => .after fun _ => .after fun _ =>
        .after fun _ => .ok .setTwr) h
    | crvdef =>
      exact frame_of_conclude (.after fun _ => .after fun _ => .after fun _ => .after fun _ => .after fun _ =>
        .after fun _ => .after fun _ => .ok .setCrv) h
    | prgdef =>
      exact frame_of_conclude (.after fun _ => .after fun _ => .after fun _ => .after fun _ => .after fun _ =>
        .after fun _ => .after fun _ => .after fun _ => .after fun _ => .after fun _ => .after fun _ => .ok .setPrg) h
    | precg1 =>
      exact frame_of_conclude (.after fun _ => .after fun _ => .after fun _ => .after fun _ =>
        .ok (.setPre (.inl ⟨_, rfl⟩))) h
    | precg2 =>
      exact frame_of_conclude (.after fun _ => .after fun _ => .after fun _ => .after fun _ =>
        .ok (.setPre (.inr ⟨_, rfl⟩))) h
    | _ => exact absurd rfl hi

/-! ### PC, STATE and the fault registers -/

/-- The commands that say themselves where PC goes. -/
def ownsPc : Instr → Bool
  | .halt | .jmp _ | .bs _ _ | .bc _ _ => true
  | _ => false

theorem exec_eq_conclude {i : Instr} (hi : ownsPc i = false) (s : State) : ∃ a, exec i s = conclude i s a := by
  cases i with
  | halt | jmp | bs | bc => cases hi
  | nop | li | moval | movah | setal | setah | add | sub | mul | shl1 | shr1 | shl | shr | cmp | bitlen | btst =>
    exact ⟨.ok _, rfl⟩
  | _ => exact ⟨_, rfl⟩

/-- Where PC and STATE go (R27, R131, R356). -/
def ControlFrame (i : Instr) (s t : State) : Prop :=
  (∃ k info, t = s.faulted k info) ∨
    (t.err = s.err ∧ t.epc = s.epc ∧ t.einfo = s.einfo ∧
      ((i = .halt ∧ t.run = .halted ∧ t.pc = s.pc) ∨
        (i ≠ .halt ∧ t.run = s.run ∧
          (t.pc = s.pc + 1#19 ∨
            ∃ target : Imm18, t.pc.toNat = target.toNat ∧
              (i = .jmp target ∨ (∃ f, i = .bs f target) ∨ ∃ f, i = .bc f target)))))

theorem exec_controlFrame_of_conclude {i : Instr} (hi : ownsPc i = false) (h : exec i s = .next t) : ControlFrame i s t := by
  have hne : i ≠ .halt := by
    rintro rfl
    cases hi
  obtain ⟨t', ht', hprecise⟩ := exec_answersPrecisely i s
  obtain rfl : t' = t := Host.Outcome.next.inj (ht'.symm.trans h)
  rcases hprecise with ⟨k, rfl⟩ | ⟨addr, n, -, rfl⟩ | ⟨herr, hepc, heinfo, hrun⟩
  · exact .inl ⟨k, _, rfl⟩
  · exact .inl ⟨_, _, rfl⟩
  · obtain ⟨a, ha⟩ := exec_eq_conclude hi s
    rw [ha] at h
    rcases conclude_next h with ⟨u, -, rfl⟩ | ⟨tr, -, rfl⟩
    · exact .inr ⟨herr, hepc, heinfo, .inr ⟨hne, hrun.resolve_right fun h => hne h.1, .inl rfl⟩⟩
    · exact .inl (s.takeTrap_eq (encode i) tr)

theorem exec_controlFrame {i : Instr} (h : exec i s = .next t) : ControlFrame i s t := by
  by_cases hi : ownsPc i = false
  · exact exec_controlFrame_of_conclude hi h
  · cases i with
    | halt => cases h; exact .inr ⟨rfl, rfl, rfl, .inl ⟨rfl, rfl, rfl⟩⟩
    | jmp target =>
      cases h
      exact .inr ⟨rfl, rfl, rfl, .inr ⟨by simp, rfl, .inr ⟨target, target_toNat target, .inl rfl⟩⟩⟩
    | bs f target =>
      cases h
      refine .inr ⟨rfl, rfl, rfl, .inr ⟨by simp, rfl, ?_⟩⟩
      by_cases hf : s.flag f = true
      · exact .inr ⟨target, by simp only [hf, if_true]; exact target_toNat target, .inr (.inl ⟨f, rfl⟩)⟩
      · exact .inl (by simp only [hf]; rfl)
    | bc f target =>
      cases h
      refine .inr ⟨rfl, rfl, rfl, .inr ⟨by simp, rfl, ?_⟩⟩
      by_cases hf : s.flag f = true
      · exact .inl (by simp only [hf, if_true])
      · exact .inr ⟨target, by simp only [hf]; exact target_toNat target, .inr (.inr ⟨f, rfl⟩)⟩
    | _ => exact absurd rfl hi

end

/-- Settles O14. -/
theorem commandFrame : Obligations.CommandFrame := by
  intro i s t h
  obtain ⟨hregs, hbytes, hacc, hwnafw, hie, hpar, hcm, hfresh, hctx, htwr, hcrv, hprg, hpre⟩ := exec_frame h
  obtain ⟨hc, hzl, ht⟩ := exec_flagsKept h
  exact ⟨hregs, hbytes, hacc, hwnafw, hie, hpar, hcm, hfresh, hctx, htwr, hcrv, hprg, hpre, hc, hzl, ht,
    exec_controlFrame h⟩

end Sys2Proof.Machine
end

section
/-! The host's side of the engine (10_state.md section 8, 20_memory.md section 4, 60_exceptions.md section 4,
70_reset_and_hazards.md section 1). -/

namespace Sys2Proof.Machine

/-! ### A step of the engine -/

/-- What a step can do: nothing outside RUN; in RUN a fault entry, or the command at PC. -/
theorem step_cases {s t : State} (h : step s = .next t) :
    (s.run ≠ .run ∧ t = s) ∨ (s.run = .run ∧ ∃ k info, t = s.faulted k info) ∨
    (s.run = .run ∧ s.pc.toNat < s.par.cmWords ∧ ∃ i, decode (s.wordAt s.pc.toNat) = .ok i ∧ exec i s = .next t) := by
  by_cases hrun : s.run = .run
  · rcases Nat.lt_or_ge s.pc.toNat s.par.cmWords with hpc | hpc
    · cases hdec : decode (s.wordAt s.pc.toNat) with
      | error r =>
        rw [step_of_decode_error hrun hpc hdec] at h
        exact .inr (.inl ⟨hrun, _, _, (Host.Outcome.next.inj h).symm⟩)
      | ok i => exact .inr (.inr ⟨hrun, hpc, i, rfl, step_of_decode_ok hrun hpc hdec ▸ h⟩)
    · rw [step_past_the_end hrun hpc] at h
      exact .inr (.inl ⟨hrun, .addressFault, BitVec.ofNat 32 s.pc.toNat, (Host.Outcome.next.inj h).symm⟩)
  · rw [step_of_not_run hrun] at h
    exact .inl ⟨hrun, (Host.Outcome.next.inj h).symm⟩

/-! ### Which actions count in RUN and which outside it (R87) -/

section
variable {s : State}

theorem hostAct_of_run (h : s.run = .run) (a : HostAct) : hostAct s a = s.hostRun a := by
  simp only [hostAct, h]

theorem hostAct_of_not_run (h : s.run ≠ .run) (a : HostAct) : hostAct s a = s.hostIdle a := by
  cases hrun : s.run with
  | run => exact absurd hrun h
  | idle | halted | fault => simp only [hostAct, hrun]

theorem hostAct_resetLine (s : State) : hostAct s .resetLine = s.srst := by
  cases hrun : s.run with
  | run | idle | halted | fault => simp only [hostAct, hrun]; rfl

theorem hostAct_writeCtrl (h : s.run ≠ .run ∨ v.getLsbD 3 = true) : hostAct s (.writeCsr 36 v) = s.writeCtrl v := by
  by_cases hrun : s.run = .run
  · have h3 := h.resolve_left (not_not.mpr hrun)
    rw [hostAct_of_run hrun, State.hostRun, if_pos ⟨rfl, h3⟩]
  · rw [hostAct_of_not_run hrun]
    rfl

/-- In RUN a write is ignored but for a CTRL write with SRST = 1. -/
theorem hostAct_ignored_of_run (hrun : s.run = .run) {a : HostAct} (hreset : a ≠ .resetLine)
    (hctrl : ∀ v : Word, v.getLsbD 3 = true → a ≠ .writeCsr 36 v) : hostAct s a = s := by
  rw [hostAct_of_run hrun]
  cases a with
  | resetLine => exact absurd rfl hreset
  | writeCm | writeCmByte | writeDm => rfl
  | writeCsr off v =>
    refine if_neg fun ⟨hoff, h3⟩ => hctrl v h3 ?_
    rw [hoff]

/-! ### CTRL (R45, R361) -/

theorem State.start_run (s : State) :
    s.start.run = if s.run = .idle ∨ s.run = .halted then .run else s.run := by
  cases h : s.run with
  | run | idle | halted | fault => simp [State.start, h]

theorem State.start_eq (s : State) : s.start = { s with run := s.start.run } := by
  unfold State.start
  split <;> rfl

theorem State.clearFault_run (s : State) : s.clearFault.run = if s.run = .fault then .idle else s.run := by
  by_cases h : s.run = .fault
  · rw [State.clearFault, if_pos h, if_pos h]
  · rw [State.clearFault, if_neg h, if_neg h]

theorem State.clearFault_eq (s : State) :
    s.clearFault =
      { s with
        run := s.clearFault.run, err := s.clearFault.err, epc := s.clearFault.epc, einfo := s.clearFault.einfo } := by
  by_cases h : s.run = .fault
  · rw [State.clearFault, if_pos h]
  · rw [State.clearFault, if_neg h]

/-- CLR and IE of a CTRL write, from the state `s` that SRST leaves. -/
def State.afterClrIe (s : State) (v : Word) : State :=
  { (if v.getLsbD 1 then s.clearFault else s) with ie := v.getLsbD 2 }

theorem State.writeCtrl_eq (s : State) (v : Word) :
    s.writeCtrl v =
      let u := (if v.getLsbD 3 then s.srst else s).afterClrIe v
      if v.getLsbD 0 then u.start else u := rfl

theorem State.afterClrIe_run (s : State) (v : Word) :
    (s.afterClrIe v).run = if v.getLsbD 1 ∧ s.run = .fault then .idle else s.run := by
  simp only [State.afterClrIe]
  cases v.getLsbD 1 with
  | false => simp
  | true => simp [State.clearFault_run]

theorem State.afterClrIe_eq (s : State) (v : Word) :
    s.afterClrIe v =
      { s with
        ie := v.getLsbD 2, run := (s.afterClrIe v).run, err := (s.afterClrIe v).err, epc := (s.afterClrIe v).epc,
        einfo := (s.afterClrIe v).einfo } := by
  cases h : v.getLsbD 1 with
  | false => simp only [State.afterClrIe, h]; rfl
  | true =>
    simp only [State.afterClrIe, h, if_true]
    rw [State.clearFault_eq]

theorem State.writeCtrl_run (s : State) (v : Word) :
    (s.writeCtrl v).run =
      let r1 := if v.getLsbD 3 then RunState.idle else s.run
      let r2 := if v.getLsbD 1 ∧ r1 = .fault then RunState.idle else r1
      if v.getLsbD 0 ∧ (r2 = .idle ∨ r2 = .halted) then RunState.run else r2 := by
  have hr1 : (if v.getLsbD 3 then s.srst else s).run = if v.getLsbD 3 then RunState.idle else s.run := by
    split <;> rfl
  have hr2 := State.afterClrIe_run (if v.getLsbD 3 then s.srst else s) v
  rw [hr1] at hr2
  simp only [State.writeCtrl_eq, ← hr2]
  cases v.getLsbD 0 with
  | false => simp
  | true => simp [State.start_run]

theorem State.writeCtrl_ie (s : State) (v : Word) : (s.writeCtrl v).ie = v.getLsbD 2 := by
  rw [State.writeCtrl_eq]
  cases v.getLsbD 0 with
  | false => rfl
  | true =>
    simp only [if_true]
    rw [State.start_eq]
    rfl

/-- The fault registers after a CTRL write. -/
theorem State.writeCtrl_faultRegs (s : State) {v : Word} (h3 : v.getLsbD 3 = false) :
    s.writeCtrl v =
      { s.afterClrIe v with run := (s.writeCtrl v).run } := by
  rw [State.writeCtrl_eq]
  simp only [h3, Bool.false_eq_true, if_false]
  cases v.getLsbD 0 with
  | false => rfl
  | true => exact State.start_eq _

/-- A CTRL write without SRST changes STATE, IE and the fault registers alone. -/
theorem State.writeCtrl_rest (s : State) {v : Word} (h3 : v.getLsbD 3 = false) :
    s.writeCtrl v =
      { s with
        run := (s.writeCtrl v).run, ie := (s.writeCtrl v).ie, err := (s.writeCtrl v).err,
        epc := (s.writeCtrl v).epc, einfo := (s.writeCtrl v).einfo } := by
  rw [s.writeCtrl_faultRegs h3, s.afterClrIe_eq v]

end

/-! ### Each action of the host -/

/-- What the action `a` of the host makes of `s`. -/
inductive HostEffect (s : State) : HostAct → State → Prop
  | ignored (a : HostAct) : HostEffect s a s
  | flags (v : Word) : HostEffect s (.writeCsr 24 v) (s.setFlags v.toNat)
  | wnafw (v : Word) : HostEffect s (.writeCsr 28 v) (s.writeWnafw v)
  | pc (v : Word) : HostEffect s (.writeCsr 32 v) { s with pc := (v.extractLsb' 0 18).zeroExtend 19 }
  | ctrl (v : Word) (h : s.run ≠ .run ∨ v.getLsbD 3 = true) : HostEffect s (.writeCsr 36 v) (s.writeCtrl v)
  | word (a : HostAct) (i : Nat) (w : Word) : HostEffect s a (s.putWord i w)
  | byte (a : HostAct) (i : Nat) (b : Byte) : HostEffect s a (s.putByte i b)
  | reset : HostEffect s .resetLine s.srst

theorem State.hostWriteCsr_other (s : State) {n : Nat} (h : n ∉ [6, 7, 8, 9]) (v : Word) : s.hostWriteCsr n v = s := by
  unfold State.hostWriteCsr
  split
  case h_5 => rfl
  all_goals exact absurd (by decide) h

theorem hostEffect_writeCsr {s : State} (hrun : s.run ≠ .run) (n : Nat) (v : Word) :
    HostEffect s (.writeCsr (4 * n) v) (s.hostWriteCsr n v) := by
  by_cases hn : n ∈ [6, 7, 8, 9]
  · simp only [List.mem_cons, List.not_mem_nil, or_false] at hn
    obtain rfl | rfl | rfl | rfl := hn
    · exact .flags v
    · exact .wnafw v
    · exact .pc v
    · exact .ctrl v (.inl hrun)
  · rw [s.hostWriteCsr_other hn]
    exact .ignored _

theorem hostAct_effect (s : State) (a : HostAct) : HostEffect s a (hostAct s a) := by
  by_cases hrun : s.run = .run
  · rw [hostAct_of_run hrun]
    cases a with
    | resetLine => exact .reset
    | writeCm | writeCmByte | writeDm => exact .ignored _
    | writeCsr off v =>
      rw [State.hostRun]
      split
      next h =>
        rw [h.1]
        exact .ctrl v (.inr h.2)
      next => exact .ignored _
  · rw [hostAct_of_not_run hrun]
    cases a with
    | resetLine => exact .reset
    | writeCm => exact .word _ _ _
    | writeCmByte => exact .word _ _ _
    | writeDm => exact .byte _ _ _
    | writeCsr off v =>
      rw [State.hostIdle]
      split
      next h =>
        obtain ⟨n, rfl⟩ := Nat.dvd_of_mod_eq_zero h
        rw [Nat.mul_div_cancel_left n (by decide)]
        exact hostEffect_writeCsr hrun n v
      next => exact .ignored _

/-! ### STATE -/

theorem State.putWord_run (s : State) (i : Nat) (w : Word) : (s.putWord i w).run = s.run := by
  unfold State.putWord
  split <;> rfl

theorem State.putByte_run (s : State) (a : Nat) (b : Byte) : (s.putByte a b).run = s.run := by
  unfold State.putByte
  split <;> rfl

theorem State.writeWnafw_run (s : State) (v : Word) : (s.writeWnafw v).run = s.run := by
  simp only [State.writeWnafw]
  split <;> rfl

/-- A host action other than a CTRL write and the reset leaves STATE. -/
theorem hostAct_run (s : State) {a : HostAct} (hreset : a ≠ .resetLine) (hctrl : ∀ v, a ≠ .writeCsr 36 v) :
    (hostAct s a).run = s.run := by
  have heffect := hostAct_effect s a
  generalize hostAct s a = t at heffect ⊢
  cases heffect with
  | ignored | flags | pc => rfl
  | wnafw v => exact s.writeWnafw_run v
  | ctrl v => exact absurd rfl (hctrl v)
  | word _ i w => exact s.putWord_run i w
  | byte _ i b => exact s.putByte_run i b
  | reset => exact absurd rfl hreset

/-- The transitions of STATE by the engine. -/
theorem step_run {s t : State} (h : step s = .next t) :
    (s.run ≠ .run → t = s) ∧ t.ie = s.ie ∧
    (s.run = .run → t.run = .run ∨ t.run = .fault ∨
      (t.run = .halted ∧ decode (s.wordAt s.pc.toNat) = .ok .halt)) := by
  rcases step_cases h with ⟨hrun, rfl⟩ | ⟨hrun, k, info, rfl⟩ | ⟨hrun, -, i, hdec, hi⟩
  · exact ⟨fun _ => rfl, rfl, fun h => absurd h hrun⟩
  · exact ⟨fun h => absurd hrun h, rfl, fun _ => .inr (.inl rfl)⟩
  · refine ⟨fun h => absurd hrun h, (exec_frame hi).ie, fun _ => ?_⟩
    rcases exec_controlFrame hi with ⟨k, info, rfl⟩ | ⟨-, -, -, ⟨rfl, hhalt, -⟩ | ⟨-, hkept, -⟩⟩
    · exact .inr (.inl rfl)
    · exact .inr (.inr ⟨hhalt, hdec⟩)
    · exact .inl (hkept.trans hrun)

/-- CLR takes FAULT to IDLE and clears the fault registers (R361). -/
theorem State.afterClrIe_faultRegs (s : State) (v : Word) :
    (v.getLsbD 1 = true → s.run = .fault →
      (s.afterClrIe v).err = 0#8 ∧ (s.afterClrIe v).epc = 0#19 ∧ (s.afterClrIe v).einfo = 0#32) ∧
    (v.getLsbD 1 = false ∨ s.run ≠ .fault →
      (s.afterClrIe v).err = s.err ∧ (s.afterClrIe v).epc = s.epc ∧ (s.afterClrIe v).einfo = s.einfo) := by
  simp only [State.afterClrIe, State.clearFault]
  cases v.getLsbD 1 with
  | false => simp
  | true =>
    by_cases hf : s.run = .fault
    · simp [hf]
    · simp [hf]

/-- Settles O58. -/
theorem runStateTransitions : Obligations.RunStateTransitions := by
  intro s
  refine ⟨rfl, ?_, fun t h => step_run h, fun v => ?_, ?_, fun a hreset hctrl => hostAct_run s hreset hctrl⟩
  · rw [State.irq]
    cases s.run <;> rfl
  · by_cases hrun : s.run = .run ∧ v.getLsbD 3 = false
    · have hkept : hostAct s (.writeCsr 36 v) = s := hostAct_ignored_of_run hrun.1 (by simp) fun w h3 heq => by
        obtain rfl : v = w := by simpa using heq
        rw [hrun.2] at h3
        cases h3
      simp only [hkept]
      refine ⟨?_, fun _ _ => trivial, fun h => absurd hrun h, fun h => absurd hrun.1 h⟩
      obtain ⟨hrun, h3⟩ := hrun
      simp only [hrun, h3, Bool.false_eq_true, if_false, reduceCtorEq, and_false, or_self]
    · have hact : hostAct s (.writeCsr 36 v) = s.writeCtrl v := hostAct_writeCtrl <| by
        rw [not_and, Bool.not_eq_false] at hrun
        exact (em (s.run = .run)).elim (fun h => .inr (hrun h)) .inl
      simp only [hact]
      refine ⟨s.writeCtrl_run v, fun h h3 => absurd ⟨h, h3⟩ hrun, fun _ => s.writeCtrl_ie v, fun _ h3 =>
        ⟨s.writeCtrl_rest h3, ?_⟩⟩
      rw [s.writeCtrl_faultRegs h3]
      exact s.afterClrIe_faultRegs v
  · rw [hostAct_resetLine]
    rfl

end Sys2Proof.Machine
end

section
/-! What a reset keeps (70_reset_and_hazards.md section 1) and what the host's window reads and writes (10_state.md
section 8, 20_memory.md section 4). -/

namespace Sys2Proof.Machine

/-! ### Reset (R390, R391) -/

theorem State.spoil_byteAt_of_out {l : List Nat} {a : Nat} (s : State) (h : a ∉ l) : (s.spoil l).byteAt a = s.byteAt a := by
  induction l generalizing s with
  | nil => rfl
  | cons b rest ih =>
    obtain ⟨hab, hrest⟩ := List.ne_and_not_mem_of_not_mem_cons h
    rw [State.spoil, ih _ hrest]
    simp only [State.byteAt, Memory.lookup_store_any, if_neg hab]

/-- A command stores only where its data access is, and only inside DM. -/
theorem targetBytes_dataAccess {s : State} {i : Instr} {a : Nat} (h : a ∈ s.targetBytes i) :
    ∃ addr n, s.dataAccess i = some (addr, n) ∧ s.InsideDm addr n ∧ addr ≤ a ∧ a < addr + n ∧
      ((∃ r b m, i = .st r b m) ∨ (∃ r b, i = .fenc r b) ∨ ∃ r b c w, i = .wnafenc r b c w) := by
  cases i with
  | st r b m =>
    simp only [State.targetBytes] at h
    split at h
    next hadm => exact ⟨_, _, rfl, State.admits_iff.mp hadm, (mem_addressRange.mp h).1, (mem_addressRange.mp h).2,
      .inl ⟨r, b, m, rfl⟩⟩
    next => exact absurd h (by simp)
  | fenc r b =>
    simp only [State.targetBytes] at h
    split at h
    next => exact absurd h (by simp)
    next f hf =>
      split at h
      next hadm =>
        obtain ⟨c, e, htag, hctx, rfl⟩ := State.needFp_eq_ok.mp hf
        refine ⟨_, _, ?_, State.admits_iff.mp hadm, (mem_addressRange.mp h).1, (mem_addressRange.mp h).2,
          .inr (.inl ⟨r, b, rfl⟩)⟩
        simp only [State.dataAccess, htag, hctx]
        rfl
      next => exact absurd h (by simp)
  | wnafenc r b c w =>
    simp only [State.targetBytes] at h
    split at h
    next hcond =>
      obtain ⟨hw, hraw, hadm⟩ := hcond
      exact ⟨_, _, if_neg (by simp [hw, hraw]), State.admits_iff.mp hadm, (mem_addressRange.mp h).1,
        (mem_addressRange.mp h).2, .inr (.inr ⟨r, b, c, w, rfl⟩)⟩
    next => exact absurd h (by simp)
  | _ => exact absurd h (by simp [State.targetBytes])

theorem State.mem_abandoned {s : State} {a : Nat} (h : a ∈ s.abandoned) :
    s.run = .run ∧ ∃ i, decode (s.wordAt s.pc.toNat) = .ok i ∧ a ∈ s.targetBytes i := by
  simp only [State.abandoned] at h
  split at h
  next hrun =>
    split at h
    next => exact absurd h (by simp)
    next w hw =>
      split at h
      next => exact absurd h (by simp)
      next i hi =>
        simp only [State.fetch, Option.ite_none_right_eq_some, Option.some.injEq] at hw
        exact ⟨hrun, i, hw.2 ▸ hi, h⟩
  all_goals exact absurd h (by simp)

/-- Settles O59. -/
theorem resetKeepsMemories : Obligations.ResetKeepsMemories := by
  refine ⟨fun s => ?_, fun _ => rfl, fun _ => rfl⟩
  simp only [hostAct_resetLine]
  refine ⟨rfl, ?_, rfl, fun _ => rfl, fun a ha => s.spoil_byteAt_of_out ha, fun a ha => ?_⟩
  · rw [hostAct_writeCtrl (.inr (by decide))]
    rfl
  · obtain ⟨hrun, i, hdec, htarget⟩ := State.mem_abandoned ha
    obtain ⟨addr, n, hacc⟩ := targetBytes_dataAccess htarget
    exact ⟨hrun, i, addr, n, hdec, hacc⟩

/-! ### Reads (R36 to R47, R87) -/

section
variable {s : State}

theorem hostReadCsr_status (s : State) (k : Nat) : s.hostReadCsr k 8 = BitVec.ofNat 32 s.run.code := by
  simp [State.hostReadCsr, State.hostCsrValue, State.csrValue]

theorem hostReadCsr_of_not_run (h : s.run ≠ .run) (k off : Nat) :
    s.hostReadCsr k off = if off % 4 = 0 then BitVec.ofNat 32 (s.hostCsrValue (off / 4)) else 0#32 :=
  if_neg fun hrun => h hrun.1

theorem csrValue_other (s : State) {n : Nat} (h : 11 ≤ n) : s.csrValue n = 0 := by
  unfold State.csrValue
  split
  case h_11 => rfl
  all_goals exact absurd h (by decide)

theorem hostReadCsr_other (h : s.run ≠ .run) {off : Nat} (hoff : off % 4 ≠ 0 ∨ 44 ≤ off) (k : Nat) :
    s.hostReadCsr k off = 0#32 := by
  rw [hostReadCsr_of_not_run h]
  split
  next hmod =>
    rw [State.hostCsrValue, if_neg (by omega), csrValue_other s (by omega)]
  next => rfl

/-- CSR number `n` at its offset. -/
theorem hostReadCsr_at (h : s.run ≠ .run) {n : Nat} (h9 : n ≠ 9) (k : Nat) :
    s.hostReadCsr k (4 * n) = BitVec.ofNat 32 (s.csrValue n) := by
  rw [hostReadCsr_of_not_run h, if_pos (Nat.mul_mod_right 4 n), Nat.mul_div_cancel_left n (by decide),
    State.hostCsrValue, if_neg h9]

/-! ### Writes (R42 to R49, R77) -/

theorem hostAct_writeCsr (h : s.run ≠ .run) (n : Nat) (v : Word) :
    hostAct s (.writeCsr (4 * n) v) = s.hostWriteCsr n v := by
  rw [hostAct_of_not_run h, State.hostIdle, if_pos (Nat.mul_mod_right 4 n), Nat.mul_div_cancel_left n (by decide)]

theorem hostAct_writeCsr_other (h : s.run ≠ .run) {off : Nat} (hoff : off ∉ [24, 28, 32, 36]) (v : Word) :
    hostAct s (.writeCsr off v) = s := by
  rw [hostAct_of_not_run h, State.hostIdle]
  split
  next hmod =>
    refine s.hostWriteCsr_other ?_ v
    simp only [List.mem_cons, List.not_mem_nil, or_false] at hoff ⊢
    omega
  next => rfl

theorem State.wordAt_putWord {i : Nat} (hi : i < s.par.cmWords) (w : Word) (n : Nat) :
    (s.putWord i w).wordAt n = if n = i then w else s.wordAt n := by
  simp only [State.putWord, if_pos hi, State.wordAt, Memory.lookup_store_any]
  split <;> rfl

theorem State.byteAt_putByte {a : Nat} (ha : a < s.par.dmBytes) (b : Byte) (n : Nat) :
    (s.putByte a b).byteAt n = if n = a then b else s.byteAt n := by
  simp only [State.putByte, if_pos ha, State.byteAt, Memory.lookup_store_any]
  split <;> rfl

theorem State.putWord_eq (s : State) (i : Nat) (w : Word) : s.putWord i w = { s with cm := (s.putWord i w).cm } := by
  unfold State.putWord
  split <;> rfl

theorem State.putByte_eq (s : State) (a : Nat) (b : Byte) : s.putByte a b = { s with dm := (s.putByte a b).dm } := by
  unfold State.putByte
  split <;> rfl

/-- `setByte` puts the bits below, the byte and the bits above side by side. -/
theorem setByte_eq (w : Word) (j : Nat) (b : Byte) :
    setByte w j b =
      BitVec.ofNat 32 (w.toNat % 2 ^ (8 * j) + 2 ^ (8 * j) * (b.toNat + 2 ^ 8 * (w.toNat / 2 ^ (8 * j + 8)))) := by
  rw [setByte]
  congr 1
  ring

/-- A byte replaced in a word (R77). -/
theorem setByte_byte (w : Word) {j n : Nat} (hn : n < 4) (b : Byte) :
    (setByte w j b).extractLsb' (8 * n) 8 = if n = j then b else w.extractLsb' (8 * n) 8 := by
  refine BitVec.eq_of_getLsbD_eq fun i hi => ?_
  rw [BitVec.getLsbD_extractLsb', setByte_eq, BitVec.getLsbD_ofNat,
    testBit_add_two_pow_mul (Nat.mod_lt _ (Nat.two_pow_pos _)), testBit_add_two_pow_mul b.isLt, decide_eq_true hi,
    decide_eq_true (show 8 * n + i < 32 by omega), Bool.true_and, Bool.true_and]
  rcases Nat.lt_trichotomy n j with hlt | rfl | hgt
  · rw [if_pos (by omega), if_neg (by omega), Nat.testBit_mod_two_pow, decide_eq_true (by omega), Bool.true_and,
      BitVec.getLsbD_extractLsb', decide_eq_true hi, Bool.true_and]
    rfl
  · rw [if_neg (by omega), if_pos (by omega), if_pos rfl, Nat.add_sub_cancel_left]
    rfl
  · rw [if_neg (by omega), if_neg (by omega), if_neg (by omega), Nat.testBit_div_two_pow,
      BitVec.getLsbD_extractLsb', decide_eq_true hi, Bool.true_and,
      show 8 * n + i - 8 * j - 8 + (8 * j + 8) = 8 * n + i by omega]
    rfl

/-- The CSRs the host reads, at their offsets (R36 to R46). -/
theorem hostReadCsr_values (h : s.run ≠ .run) (k : Nat) :
    s.hostReadCsr k 0 = 0x4D4D0007#32 ∧ (s.par.valid = true → CfgFields s.par (s.hostReadCsr k 4).toNat) ∧
    s.hostReadCsr k 12 = BitVec.ofNat 32 s.err.toNat ∧
    s.hostReadCsr k 16 = BitVec.ofNat 32 s.epc.toNat ∧ s.hostReadCsr k 20 = s.einfo ∧
    FlagsFields s (s.hostReadCsr k 24).toNat ∧
    s.hostReadCsr k 28 = BitVec.ofNat 32 s.wnafw.toNat ∧ s.hostReadCsr k 32 = BitVec.ofNat 32 s.pc.toNat ∧
    s.hostReadCsr k 36 = BitVec.ofNat 32 (4 * s.ie.toNat) ∧ DefvFields s (s.hostReadCsr k 40).toNat := by
  have hat : ∀ n, n ≠ 9 → s.hostReadCsr k (4 * n) = BitVec.ofNat 32 (s.csrValue n) := fun n h9 => hostReadCsr_at h h9 k
  have hfit : ∀ n, n ≠ 9 → s.csrValue n < 2 ^ 32 → (s.hostReadCsr k (4 * n)).toNat = s.csrValue n :=
    fun n h9 hlt => by rw [hat n h9, BitVec.toNat_ofNat, Nat.mod_eq_of_lt hlt]
  have hdefv := csrDefv_fields s
  refine ⟨hat 0 (by decide), fun hpar => ?_, hat 3 (by decide), hat 4 (by decide),
    (hat 5 (by decide)).trans (BitVec.ofNat_toNat _ _), ?_, hat 7 (by decide), hat 8 (by decide), ?_, ?_⟩
  · obtain ⟨hcfg, hlt⟩ := csrCfg_fields hpar
    rw [hfit 1 (by decide) hlt]
    exact hcfg
  · obtain ⟨-, -, -, -, hlt⟩ := csrFlags_fields s
    rw [hfit 6 (by decide) (hlt.trans (by decide))]
    exact csrFlags_fields s
  · rw [hostReadCsr_of_not_run h]
    rfl
  · rw [hfit 10 (by decide) (hdefv.1.trans (by decide))]
    exact hdefv

theorem writeWnafw_eq (s : State) (v : Word) :
    s.writeWnafw v =
      if 1 ≤ v.toNat % 16 ∧ v.toNat % 16 ≤ s.par.wMax then { s with wnafw := BitVec.ofNat 4 (v.toNat % 16) } else s := by
  have hw : v.extractLsb' 0 4 = BitVec.ofNat 4 (v.toNat % 16) := BitVec.eq_of_toNat_eq (by simp)
  have hn : (BitVec.ofNat 4 (v.toNat % 16)).toNat = v.toNat % 16 := by simp
  simp only [State.writeWnafw, hw, hn]
  split
  · rw [if_neg (by omega)]
  · rw [if_pos (by omega)]

/-- Settles O60. -/
theorem hostWindow : Obligations.HostWindow := by
  intro s
  refine ⟨hostReadCsr_status s, fun hrun => ⟨fun a => hostAct_ignored_of_run hrun, fun k off hoff => if_pos ⟨hrun, hoff⟩,
    fun k n => ⟨if_pos (.inl hrun), if_pos (.inl hrun)⟩⟩, fun hrun => ⟨fun k off hoff => hostReadCsr_other hrun hoff k,
    hostReadCsr_values hrun, fun k i => ?_, fun k a => ?_, fun v => hostAct_writeCsr hrun 6 v, fun v => ?_, fun v => ?_,
    fun off v hoff => hostAct_writeCsr_other hrun hoff v, fun i w hi => ?_, fun i j b hi hj => ?_, fun a b ha => ?_,
    fun i w hi => ?_, fun a b ha => ?_, fun a b ha => ?_⟩⟩
  · by_cases hi : i < s.par.cmWords
    · rw [if_pos hi, State.hostReadCm, if_neg (by simp [hrun, hi])]
    · rw [if_neg hi, State.hostReadCm, if_pos (.inr (Nat.not_lt.mp hi))]
  · by_cases ha : a < s.par.dmBytes
    · rw [if_pos ha, State.hostReadDm, if_neg (by simp [hrun, ha])]
    · rw [if_neg ha, State.hostReadDm, if_pos (.inr (Nat.not_lt.mp ha))]
  · exact (hostAct_writeCsr hrun 7 v).trans (writeWnafw_eq s v)
  · refine (hostAct_writeCsr hrun 8 v).trans ?_
    have hpc : (v.extractLsb' 0 18).zeroExtend 19 = BitVec.ofNat 19 (v.toNat % 2 ^ 18) :=
      BitVec.eq_of_toNat_eq (by simp)
    rw [State.hostWriteCsr, hpc]
  · rw [hostAct_of_not_run hrun]
    refine ⟨s.putWord_eq i w, ?_, fun n hn => ?_⟩
    · exact (State.wordAt_putWord hi w i).trans (if_pos rfl)
    · exact (State.wordAt_putWord hi w n).trans (if_neg hn)
  · have hdiv : (4 * i + j) / 4 = i := by omega
    have hmod : (4 * i + j) % 4 = j := by omega
    rw [hostAct_of_not_run hrun, State.hostIdle, hdiv, hmod]
    refine ⟨s.putWord_eq i _, fun n hn => ?_, fun n hn => ?_⟩
    · exact (State.wordAt_putWord hi _ n).trans (if_neg hn)
    · rw [State.wordAt_putWord hi, if_pos rfl]
      exact setByte_byte _ hn b
  · rw [hostAct_of_not_run hrun]
    refine ⟨s.putByte_eq a b, ?_, fun n hn => ?_⟩
    · exact (State.byteAt_putByte ha b a).trans (if_pos rfl)
    · exact (State.byteAt_putByte ha b n).trans (if_neg hn)
  · rw [hostAct_of_not_run hrun]
    exact if_neg (by omega)
  · rw [hostAct_of_not_run hrun]
    exact if_neg (by omega)
  · rw [hostAct_of_not_run hrun]
    exact if_neg (by omega)

end

end Sys2Proof.Machine
end

section
/-! What the definition commands write when they complete, and that a valid table entry is written once (R31 to R34). -/

namespace Sys2Proof.Machine

variable {s t : State}

/-! ### What a completed definition command has checked -/

theorem faulted_or_ok_of_conclude {i : Instr} {a : Attempt State} (h : conclude i s a = .next t) :
    (∃ k info, t = s.faulted k info) ∨ ∃ u, a = .ok u ∧ t = s.next u := by
  rcases conclude_next h with ⟨u, hu, rfl⟩ | ⟨tr, -, rfl⟩
  · exact .inr ⟨u, hu, rfl⟩
  · exact .inl (s.takeTrap_eq (encode i) tr)

theorem strategyAdmits_of_not_refused {strat : Strategy} {m : Nat}
    (hmont : (strat == .mont && (decide (m % 2 = 0) || decide (m ≤ 1))) = false)
    (hbarr : (strat == .barr && decide (m = 0)) = false) : strategyAdmits strat m = true := by
  cases strat with
  | mont =>
    have h : ¬ (m % 2 = 0 ∨ m ≤ 1) := by simpa using hmont
    simp only [strategyAdmits, Bool.and_eq_true, decide_eq_true_eq]
    omega
  | barr =>
    have h : m ≠ 0 := by simpa using hbarr
    simp only [strategyAdmits, decide_eq_true_eq]
    omega

theorem exec_ctxdef_next {c : CtxIx} {rs1 : RegIx} {st : Strategy} (h : exec (.ctxdef c rs1 st) s = .next t) :
    (∃ k info, t = s.faulted k info) ∨
    (s.ctxAt c = none ∧ strategyAdmits st (s.val rs1) = true ∧
      t = s.next (s.setCtx c (makeCtx s.par st (s.val rs1)))) := by
  refine (faulted_or_ok_of_conclude h).imp_right fun ⟨u, hu, heq⟩ => ?_
  simp only [raiseIf_bind_eq_ok, Except.ok.injEq, Option.isSome_eq_false_iff, Option.isNone_iff_eq_none] at hu
  obtain ⟨hnone, hmont, hbarr, rfl⟩ := hu
  exact ⟨hnone, strategyAdmits_of_not_refused hmont hbarr, heq⟩

/-- The entry that TWRDEF writes over the base `f` (R242). -/
def State.newTwr (s : State) (rs1 rs2 : RegIx) (deg : Degree) (base : FieldSel) (f : FieldView) : Twr :=
  { base := tierOf base, deg := deg, beta := s.elemAt f rs1.toNat, gamma := s.elemsAt f rs2.toNat (degreeNat deg - 1),
    root := f.root, k := degreeNat deg * f.k }

theorem exec_twrdef_next {x : TwrIx} {rs1 rs2 : RegIx} {deg : Degree} {base : FieldSel}
    (h : exec (.twrdef x rs1 rs2 deg base) s = .next t) :
    (∃ k info, t = s.faulted k info) ∨
    (s.twrAt x = none ∧ ∃ f, s.fieldOf (tierOf base) = some f ∧ rs1.toNat + f.k ≤ 64 ∧
      rs2.toNat + (degreeNat deg - 1) * f.k ≤ 64 ∧ s.tagged f rs1.toNat f.k = true ∧
      s.tagged f rs2.toNat ((degreeNat deg - 1) * f.k) = true ∧
      isNonResidue f.fld deg (s.elemAt f rs1.toNat) = true ∧
      t = s.next (s.setTwr x (s.newTwr rs1 rs2 deg base f))) := by
  refine (faulted_or_ok_of_conclude h).imp_right fun ⟨u, hu, heq⟩ => ?_
  simp only [Attempt.bind_eq_ok, raiseIf_eq_ok, exists_const, State.needField_eq_ok, Except.ok.injEq,
    Option.isSome_eq_false_iff, Option.isNone_iff_eq_none, Bool.or_eq_false_iff, Bool.not_eq_false', runsPast,
    decide_eq_false_iff_not, Nat.not_lt] at hu
  obtain ⟨-, hnone, f, hf, ⟨hfit1, hfit2⟩, ⟨htag1, htag2⟩, hres, rfl⟩ := hu
  exact ⟨hnone, f, hf, hfit1, hfit2, htag1, htag2, hres, heq⟩

/-- The entry that CRVDEF writes (R270). -/
def newCrv (fd : FieldSel) (twist : BitVec 2) (ab : Elem × Elem) (r : Nat) : Crv :=
  { fd := tierOf fd, a := ab.1, b := ab.2, twist := twistOf twist, r := r, sbits := bitLength r }

theorem exec_crvdef_next {n : CrvIx} {rs1 rs2 : RegIx} {twist : BitVec 2} {fd : FieldSel}
    (h : exec (.crvdef n rs1 rs2 twist fd) s = .next t) :
    (∃ k info, t = s.faulted k info) ∨
    (s.crvAt n = none ∧ ∃ f, s.fieldOf (tierOf fd) = some f ∧ rs1.toNat + 2 * f.k ≤ 64 ∧
      s.tagged f rs1.toNat (2 * f.k) = true ∧ s.val rs2 ≠ 0 ∧
      t = s.next (s.setCrv n (newCrv fd twist (s.pairAt f rs1.toNat) (s.val rs2)))) := by
  refine (faulted_or_ok_of_conclude h).imp_right fun ⟨u, hu, heq⟩ => ?_
  simp only [Attempt.bind_eq_ok, raiseIf_eq_ok, exists_const, State.needField_eq_ok, State.needPair_eq_ok, State.needRaw_eq_ok,
    Except.ok.injEq, Option.isSome_eq_false_iff, Option.isNone_iff_eq_none, runsPast, decide_eq_false_iff_not,
    Nat.not_lt] at hu
  obtain ⟨-, hnone, f, hf, hfit, _, ⟨htag, rfl⟩, _, ⟨-, rfl⟩, hr, rfl⟩ := hu
  exact ⟨hnone, f, hf, hfit, htag, hr, heq⟩

/-- The configuration that PRGDEF writes (R321). -/
def newPrg (g1 g2 : CrvIx) (neg : Bool) (x : TwrIx) (loop : Nat) (omega : Elem) (e : Nat) : Prg :=
  { g1 := g1, g2 := g2, twr := x, neg := neg, loop := loop, omega := omega, e := e }

theorem exec_prgdef_next {g1 g2 : CrvIx} {neg : Bool} {rs1 rs2 : RegIx} {x : TwrIx}
    (h : exec (.prgdef g1 g2 neg rs1 rs2 x) s = .next t) :
    (∃ k info, t = s.faulted k info) ∨
    (s.prg = none ∧ ∃ c1 c2 gt, s.curveOf g1 = some c1 ∧ s.curveOf g2 = some c2 ∧ s.fieldOf (.tower x) = some gt ∧
      pairingStructure s c1 c2 gt x = true ∧ rs2.toNat + gt.k ≤ 64 ∧ s.tagged gt rs2.toNat gt.k = true ∧
      s.val rs1 ≠ 0 ∧ (gt.ctx.m ^ gt.k - 1) % c1.crv.r = 0 ∧
      twistEqualities gt.fld c2.crv.twist c1.crv.a c1.crv.b c2.crv.a c2.crv.b (s.elemAt gt rs2.toNat) = true ∧
      t = s.next (s.setPrg (newPrg g1 g2 neg x (s.val rs1) (s.elemAt gt rs2.toNat)
        ((gt.ctx.m ^ gt.k - 1) / c1.crv.r)))) := by
  refine (faulted_or_ok_of_conclude h).imp_right fun ⟨u, hu, heq⟩ => ?_
  simp only [Attempt.bind_eq_ok, raiseIf_eq_ok, exists_const, State.needCurve_eq_ok, State.needTower_eq_ok, State.needElem_eq_ok,
    State.needRaw_eq_ok, Except.ok.injEq, Option.isSome_eq_false_iff, Option.isNone_iff_eq_none, runsPast,
    decide_eq_false_iff_not, Nat.not_lt, Bool.not_eq_false', ne_eq, not_not] at hu
  obtain ⟨hnone, c1, hc1, c2, hc2, gt, hgt, hstr, hfit, _, ⟨-, rfl⟩, _, ⟨htag, rfl⟩, hloop, hdvd, htw, rfl⟩ := hu
  exact ⟨hnone, c1, c2, gt, hc1, hc2, hgt, hstr, hfit, htag, hloop, hdvd, htw, heq⟩

theorem exec_precg1_next {n : SlotIx} {rs1 : RegIx} (h : exec (.precg1 n rs1) s = .next t) :
    (∃ k info, t = s.faulted k info) ∨
    ∃ (v : PairingView) (q : Elem × Elem), s.pairingOf = some v ∧ t = s.next (s.setPre n (.g1 q.1 q.2)) := by
  refine (faulted_or_ok_of_conclude h).imp_right fun ⟨u, hu, heq⟩ => ?_
  simp only [Attempt.bind_eq_ok, raiseIf_eq_ok, exists_const, State.needPairing_eq_ok, orRaise_eq_ok, Except.ok.injEq] at hu
  obtain ⟨v, hv, -, -, -, q, -, rfl⟩ := hu
  exact ⟨v, q, hv, heq⟩

theorem exec_precg2_next {n : SlotIx} {rs1 : RegIx} (h : exec (.precg2 n rs1) s = .next t) :
    (∃ k info, t = s.faulted k info) ∨
    ∃ v q lines, s.pairingOf = some v ∧
      precomputeG2 v.g2.fv.fld v.g2.crv.a v.g2.crv.b v.prg.loop q = some lines ∧
      t = s.next (s.setPre n (.g2 lines)) := by
  refine (faulted_or_ok_of_conclude h).imp_right fun ⟨u, hu, heq⟩ => ?_
  simp only [Attempt.bind_eq_ok, raiseIf_eq_ok, exists_const, State.needPairing_eq_ok, orRaise_eq_ok, Except.ok.injEq] at hu
  obtain ⟨v, hv, -, q, -, lines, hlines, rfl⟩ := hu
  exact ⟨v, q, lines, hv, hlines, heq⟩

/-! ### Entries are kept -/

/-- `t` keeps every valid entry of the definition tables of `s`. -/
structure KeepsEntries (s t : State) : Prop where
  ctx : ∀ c e, s.ctxAt c = some e → t.ctxAt c = some e
  twr : ∀ x e, s.twrAt x = some e → t.twrAt x = some e
  crv : ∀ n e, s.crvAt n = some e → t.crvAt n = some e
  prg : ∀ e, s.prg = some e → t.prg = some e

theorem KeepsEntries.of_eq (hctx : t.ctx = s.ctx) (htwr : t.twr = s.twr) (hcrv : t.crv = s.crv) (hprg : t.prg = s.prg) :
    KeepsEntries s t := by
  refine ⟨fun c e h => ?_, fun x e h => ?_, fun n e h => ?_, fun e h => hprg.trans h⟩
  · rw [State.ctxAt, hctx]; exact h
  · rw [State.twrAt, htwr]; exact h
  · rw [State.crvAt, hcrv]; exact h

theorem KeepsEntries.setCtx {c : CtxIx} {e : Ctx} (hnone : s.ctxAt c = none) : KeepsEntries s (s.setCtx c e) := by
  refine ⟨fun k x hx => ?_, fun _ _ => id, fun _ _ => id, fun _ => id⟩
  rw [State.ctxAt_setCtx, if_neg]
  · exact hx
  · rintro rfl
    cases hnone.symm.trans hx

theorem KeepsEntries.setTwr {n : TwrIx} {e : Twr} (hnone : s.twrAt n = none) : KeepsEntries s (s.setTwr n e) := by
  refine ⟨fun _ _ => id, fun k x hx => ?_, fun _ _ => id, fun _ => id⟩
  rw [State.twrAt_setTwr, if_neg]
  · exact hx
  · rintro rfl
    cases hnone.symm.trans hx

theorem KeepsEntries.setCrv {n : CrvIx} {e : Crv} (hnone : s.crvAt n = none) : KeepsEntries s (s.setCrv n e) := by
  refine ⟨fun _ _ => id, fun _ _ => id, fun k x hx => ?_, fun _ => id⟩
  rw [State.crvAt_setCrv, if_neg]
  · exact hx
  · rintro rfl
    cases hnone.symm.trans hx

theorem KeepsEntries.setPrg {e : Prg} (hnone : s.prg = none) : KeepsEntries s (s.setPrg e) :=
  ⟨fun _ _ => id, fun _ _ => id, fun _ _ => id, fun x hx => by cases hnone.symm.trans hx⟩

theorem KeepsEntries.next (h : KeepsEntries s t) : KeepsEntries s (s.next t) := ⟨h.ctx, h.twr, h.crv, h.prg⟩

/-- Every command keeps the valid entries. -/
theorem exec_keepsEntries {i : Instr} (h : exec i s = .next t) : KeepsEntries s t := by
  have hframe := exec_frame h
  cases i with
  | ctxdef =>
    rcases exec_ctxdef_next h with ⟨k, info, rfl⟩ | ⟨hnone, -, rfl⟩
    · exact .of_eq rfl rfl rfl rfl
    · exact (KeepsEntries.setCtx hnone).next
  | twrdef =>
    rcases exec_twrdef_next h with ⟨k, info, rfl⟩ | ⟨hnone, f, -, -, -, -, -, -, rfl⟩
    · exact .of_eq rfl rfl rfl rfl
    · exact (KeepsEntries.setTwr hnone).next
  | crvdef =>
    rcases exec_crvdef_next h with ⟨k, info, rfl⟩ | ⟨hnone, f, -, -, -, -, rfl⟩
    · exact .of_eq rfl rfl rfl rfl
    · exact (KeepsEntries.setCrv hnone).next
  | prgdef =>
    rcases exec_prgdef_next h with ⟨k, info, rfl⟩ | ⟨hnone, c1, c2, gt, -, -, -, -, -, -, -, -, -, rfl⟩
    · exact .of_eq rfl rfl rfl rfl
    · exact (KeepsEntries.setPrg hnone).next
  | _ =>
    exact ⟨fun c e he => (hframe.ctx c).elim (·.trans he) (by simp), fun x e he => (hframe.twr x).elim (·.trans he) (by simp),
      fun n e he => (hframe.crv n).elim (·.trans he) (by simp), fun e he => hframe.prg.elim (·.trans he) (by simp)⟩

theorem step_keepsEntries (h : step s = .next t) : KeepsEntries s t := by
  rcases step_cases h with ⟨-, rfl⟩ | ⟨-, k, info, rfl⟩ | ⟨-, -, i, -, hi⟩
  · exact .of_eq rfl rfl rfl rfl
  · exact .of_eq rfl rfl rfl rfl
  · exact exec_keepsEntries hi

theorem hostEffect_keepsEntries {a : HostAct} (h : HostEffect s a t) (hreset : a ≠ .resetLine)
    (hctrl : ∀ v : Word, v.getLsbD 3 = true → a ≠ .writeCsr 36 v) : KeepsEntries s t := by
  cases h with
  | ignored | flags | pc => exact .of_eq rfl rfl rfl rfl
  | wnafw v => simp only [State.writeWnafw]; split <;> exact .of_eq rfl rfl rfl rfl
  | ctrl v =>
    have h3 : v.getLsbD 3 = false := Bool.eq_false_iff.mpr fun h3 => hctrl v h3 rfl
    rw [s.writeCtrl_rest h3]
    exact .of_eq rfl rfl rfl rfl
  | word _ i w => rw [s.putWord_eq]; exact .of_eq rfl rfl rfl rfl
  | byte _ i b => rw [s.putByte_eq]; exact .of_eq rfl rfl rfl rfl
  | reset => exact absurd rfl hreset

/-- What an engine step makes of the state. -/
theorem step_next (s : State) : step s = .next (s.after .engine) := by
  obtain ⟨t, ht⟩ : ∃ t, step s = .next t := by
    by_cases hrun : s.run = .run
    · rcases Nat.lt_or_ge s.pc.toNat s.par.cmWords with hpc | hpc
      · cases hdec : decode (s.wordAt s.pc.toNat) with
        | error r => exact ⟨_, step_of_decode_error hrun hpc hdec⟩
        | ok i =>
          obtain ⟨t, ht, -⟩ := exec_answersPrecisely i s
          exact ⟨t, (step_of_decode_ok hrun hpc hdec).trans ht⟩
      · exact ⟨_, step_past_the_end hrun hpc⟩
    · exact ⟨s, step_of_not_run hrun⟩
  rw [State.after, ht]

/-- Settles O12. -/
theorem tableEntriesAreWrittenOnce : Obligations.TableEntriesAreWrittenOnce := by
  intro s e hreset hctrl
  have hkeep : KeepsEntries s (s.after e) := by
    cases e with
    | engine => exact step_keepsEntries (step_next s)
    | host a =>
      exact hostEffect_keepsEntries (hostAct_effect s a) (fun ha => hreset (congrArg _ ha))
        fun v h3 ha => hctrl v h3 (congrArg _ ha)
  obtain ⟨hctx, htwr, hcrv, hprg⟩ := hkeep
  exact ⟨hctx, htwr, hcrv, hprg⟩

end Sys2Proof.Machine
end

section
/-! Every step and every action of the host takes a sound state to a sound state (R21 to R35, R39, R43, R48, R49). -/

namespace Sys2Proof.Machine

/-! ### States that keep the tables and add to them -/

/-- `t` keeps the parameters and every valid entry of `s`, so what resolves in `s` resolves in `t`. -/
structure Extends (s t : State) extends KeepsEntries s t where
  par : t.par = s.par
  towers : s.validTowers ≤ t.validTowers

namespace Extends

variable {s t : State} (h : Extends s t)
include h

theorem resolve {n : Nat} : ∀ {x : Tier} {g : Fld}, s.resolve n x = some g → t.resolve n x = some g := by
  induction n with
  | zero => intro x g hg; cases x <;> cases hg
  | succ n ih =>
    intro x g hg
    cases x with
    | prime c =>
      simp only [State.resolve, Option.map_eq_some_iff] at hg ⊢
      obtain ⟨e, he, hg⟩ := hg
      exact ⟨e, h.ctx c e he, hg⟩
    | tower x =>
      cases he : s.twrAt x with
      | none => simp [State.resolve, he] at hg
      | some e =>
        rw [State.resolve_tower he, Option.map_eq_some_iff] at hg
        rw [State.resolve_tower (h.twr x e he), Option.map_eq_some_iff]
        obtain ⟨b, hb, hg⟩ := hg
        exact ⟨b, ih hb, hg⟩

theorem fieldOf {x : Tier} {f : FieldView} (hf : s.fieldOf x = some f) : t.fieldOf x = some f := by
  cases x with
  | prime c =>
    obtain ⟨e, he, hf⟩ := State.fieldOf_eq_some_prime.mp hf
    exact State.fieldOf_eq_some_prime.mpr ⟨e, h.ctx c e he, hf⟩
  | tower x =>
    obtain ⟨e, cx, g, he, hcx, hg, hf⟩ := State.fieldOf_eq_some_tower.mp hf
    exact State.fieldOf_eq_some_tower.mpr ⟨e, cx, g, h.twr x e he, h.ctx _ cx hcx, h.resolve hg, hf⟩

theorem curveOf {n : CrvIx} {v : CurveView} (hv : s.curveOf n = some v) : t.curveOf n = some v := by
  obtain ⟨he, hf⟩ := State.curveOf_field hv
  simp only [State.curveOf, h.crv n _ he, h.fieldOf hf]

theorem pairingOf {v : PairingView} (hv : s.pairingOf = some v) : t.pairingOf = some v := by
  obtain ⟨hprg, h1, h2, hgt⟩ := State.pairingOf_parts hv
  simp only [State.pairingOf, h.prg _ hprg, h.curveOf h1, h.curveOf h2, h.fieldOf hgt]

theorem mem_tiersBelow {n : Nat} {d : Tier} : ∀ {x : Tier}, d ∈ s.tiersBelow n x → d ∈ t.tiersBelow n x := by
  induction n with
  | zero => intro x hd; exact absurd hd (by simp [State.tiersBelow])
  | succ n ih =>
    intro x hd
    cases x with
    | prime c => exact absurd hd (by simp [State.tiersBelow])
    | tower x =>
      cases he : s.twrAt x with
      | none => exact absurd hd (by simp [State.tiersBelow, he])
      | some e =>
        simp only [State.tiersBelow, he, h.twr x e he, List.mem_cons] at hd ⊢
        exact hd.imp_right ih

theorem pairingStructure {c1 c2 : CurveView} {gt : FieldView} {x : TwrIx}
    (hs : Machine.pairingStructure s c1 c2 gt x = true) : Machine.pairingStructure t c1 c2 gt x = true := by
  simp only [Machine.pairingStructure, Bool.and_eq_true, decide_eq_true_eq] at hs ⊢
  obtain ⟨⟨⟨⟨h1, h2⟩, h3⟩, h4⟩, h5⟩ := hs
  exact ⟨⟨⟨⟨h1, h2⟩, h3⟩, h.mem_tiersBelow h4⟩, h5⟩

theorem regSound {r : Reg} (hr : s.regSound r = true) : t.regSound r = true := by
  simp only [State.regSound, h.par, Bool.and_eq_true] at hr ⊢
  obtain ⟨v, tag⟩ := r
  refine hr.imp_right fun htag => ?_
  cases tag with
  | raw => rfl
  | fp c =>
    cases he : s.ctxAt c with
    | none => simp [he] at htag
    | some e => simpa only [he, h.ctx c e he] using htag

theorem ctxEntrySound {c : CtxIx} {e : Ctx} (he : s.ctxAt c = some e) (hs : s.ctxEntrySound c = true) :
    t.ctxEntrySound c = true := by
  simpa only [State.ctxEntrySound, he, h.ctx c e he, h.par] using hs

theorem towerSound {e : Twr} (hs : s.towerSound e = true) : t.towerSound e = true := by
  obtain ⟨b, hb, hover⟩ := State.towerSound_iff.mp hs
  exact State.towerSound_iff.mpr ⟨b, h.fieldOf hb, hover⟩

theorem towerLevelSound {x : TwrIx} {e : Twr} (he : s.twrAt x = some e) (hs : s.towerLevelSound x = true) :
    t.towerLevelSound x = true := by
  simp only [State.towerLevelSound, he, h.twr x e he, Bool.and_eq_true, Option.isSome_iff_exists] at hs ⊢
  obtain ⟨hsound, g, hg⟩ := hs
  exact ⟨h.towerSound hsound, g, State.resolve_mono (Nat.add_le_add_right h.towers 1) (h.resolve hg)⟩

theorem curveSound {e : Crv} (hs : s.curveSound e = true) : t.curveSound e = true := by
  simp only [State.curveSound] at hs ⊢
  cases hf : s.fieldOf e.fd with
  | none => simp [hf] at hs
  | some f => simpa only [hf, h.fieldOf hf, h.par] using hs

theorem curveEntrySound {n : CrvIx} {e : Crv} (he : s.crvAt n = some e) (hs : s.curveEntrySound n = true) :
    t.curveEntrySound n = true := by
  simp only [State.curveEntrySound, he, h.crv n e he] at hs ⊢
  exact h.curveSound hs

theorem pairingSound {e : Prg} (he : s.prg = some e) (hs : s.pairingSound = true) : t.pairingSound = true := by
  simp only [State.pairingSound, he, h.prg e he] at hs ⊢
  cases hv : s.pairingOf with
  | none => simp [hv] at hs
  | some v =>
    simp only [hv, h.pairingOf hv, Bool.and_eq_true, h.par] at hs ⊢
    obtain ⟨⟨⟨⟨⟨⟨hstr, h1⟩, h2⟩, h3⟩, h4⟩, h5⟩, h6⟩ := hs
    exact ⟨⟨⟨⟨⟨⟨h.pairingStructure hstr, h1⟩, h2⟩, h3⟩, h4⟩, h5⟩, h6⟩

theorem slotSound {n : SlotIx} (hpre : t.preAt n = s.preAt n) (hs : s.slotSound n = true) : t.slotSound n = true := by
  simp only [State.slotSound, hpre] at hs ⊢
  cases hslot : s.preAt n with
  | none => rfl
  | some p =>
    cases he : s.prg with
    | none => cases p <;> simp [hslot, he] at hs
    | some e =>
      rw [h.prg e he]
      simpa only [hslot, he] using hs

end Extends

section
variable {s t : State}

/-- A state that differs in its tables and its command memory alone is sound when it extends a sound one by sound
entries. -/
theorem State.Inv.of_extends (h : s.Inv) (hext : Extends s t)
    (hrest : t = { s with ctx := t.ctx, twr := t.twr, crv := t.crv, prg := t.prg, pre := t.pre, cm := t.cm })
    (hcm : memorySound s.par.cmWords t.cm = true)
    (hctx : ∀ c, s.ctxAt c = none → t.ctxEntrySound c = true)
    (htwr : ∀ x, s.twrAt x = none → t.towerLevelSound x = true)
    (hcrv : ∀ n, s.crvAt n = none → t.curveEntrySound n = true) (hprg : s.prg = none → t.pairingSound = true)
    (hpre : ∀ n, t.preAt n = s.preAt n ∨ t.slotSound n = true) : t.Inv := by
  refine ⟨by rw [hext.par]; exact h.par, fun r => ?_, ?_, ?_, ?_, ?_, fun c => ?_, fun x => ?_, fun n => ?_, ?_,
    fun n => ?_, ?_, ?_⟩
  · have hreg : t.regAt r.toNat = s.regAt r.toNat := by rw [hrest]; rfl
    rw [hreg]
    exact hext.regSound (h.regs r)
  · rw [hrest]; exact h.acc
  · rw [hrest]; exact h.pc
  · rw [hrest]; exact h.faultRegs
  · rw [hrest]; exact h.window
  · cases he : s.ctxAt c with
    | none => exact hctx c he
    | some e => exact hext.ctxEntrySound he (h.ctx c)
  · cases he : s.twrAt x with
    | none => exact htwr x he
    | some e => exact hext.towerLevelSound he (h.twr x)
  · cases he : s.crvAt n with
    | none => exact hcrv n he
    | some e => exact hext.curveEntrySound he (h.crv n)
  · cases he : s.prg with
    | none => exact hprg he
    | some e => exact hext.pairingSound he h.prg
  · exact (hpre n).elim (fun heq => hext.slotSound heq (h.pre n)) id
  · rw [hrest]; exact hcm
  · rw [hrest]; exact h.dm

/-! ### The definition commands -/

/-- Entries of other tables, and other entries of a table, stay invalid or sound. -/
theorem ctxEntrySound_of_none {c : CtxIx} (h : t.ctxAt c = none) : t.ctxEntrySound c = true := by
  simp only [State.ctxEntrySound, h]

theorem towerLevelSound_of_none {x : TwrIx} (h : t.twrAt x = none) : t.towerLevelSound x = true := by
  simp only [State.towerLevelSound, h]

theorem curveEntrySound_of_none {n : CrvIx} (h : t.crvAt n = none) : t.curveEntrySound n = true := by
  simp only [State.curveEntrySound, h]

theorem pairingSound_of_none (h : t.prg = none) : t.pairingSound = true := by
  simp only [State.pairingSound, h]

theorem State.Inv.setCtx (h : s.Inv) {c : CtxIx} {e : Ctx} (hnone : s.ctxAt c = none) (he : e.sound s.par = true) :
    (s.setCtx c e).Inv := by
  refine h.of_extends ⟨.setCtx hnone, rfl, le_rfl⟩ rfl h.cm (fun k hk => ?_) (fun _ hk => towerLevelSound_of_none hk)
    (fun _ hk => curveEntrySound_of_none hk) (fun hk => pairingSound_of_none hk) fun _ => .inl rfl
  by_cases hkc : k = c
  · simp only [State.ctxEntrySound, State.ctxAt_setCtx, if_pos hkc]
    exact he
  · exact ctxEntrySound_of_none (by rw [State.ctxAt_setCtx, if_neg hkc, hk])

theorem validTowers_setTwr {x : TwrIx} {e : Twr} (hnone : s.twrAt x = none) :
    (s.setTwr x e).validTowers = s.validTowers + 1 := by
  have hx : x.toNat < s.twr.toList.length := by simpa using x.isLt
  have hnone' : s.twr.toList[x.toNat] = none := hnone
  simp only [State.validTowers, State.setTwr, Vector.toList_setIfInBounds]
  rw [List.countP_set hx, hnone']
  simp

/-- A valid base of a new level resolves in as many levels as the old entries and the new one make. -/
theorem State.Inv.resolve_base (h : s.Inv) {x : Tier} {f : FieldView} (hf : s.fieldOf x = some f) :
    (s.resolve (s.validTowers + 1) x).isSome = true := by
  cases x with
  | prime c =>
    obtain ⟨e, he, -⟩ := State.fieldOf_eq_some_prime.mp hf
    simp [State.resolve, he]
  | tower x =>
    obtain ⟨e, -, -, he, -⟩ := State.fieldOf_eq_some_tower.mp hf
    have hsound := h.twr x
    simp only [State.towerLevelSound, he, Bool.and_eq_true] at hsound
    exact hsound.2

theorem State.Inv.setTwr (h : s.Inv) {x : TwrIx} {e : Twr} {f : FieldView} (hnone : s.twrAt x = none)
    (hf : s.fieldOf e.base = some f) (hover : TowerOver e f) : (s.setTwr x e).Inv := by
  have hext : Extends s (s.setTwr x e) := ⟨.setTwr hnone, rfl, by rw [validTowers_setTwr hnone]; omega⟩
  refine h.of_extends hext rfl h.cm (fun _ hk => ctxEntrySound_of_none hk) (fun k hk => ?_)
    (fun _ hk => curveEntrySound_of_none hk) (fun hk => pairingSound_of_none hk) fun _ => .inl rfl
  by_cases hkx : k = x
  · have he : (s.setTwr x e).twrAt k = some e := by rw [State.twrAt_setTwr, if_pos hkx]
    obtain ⟨g, hg⟩ := Option.isSome_iff_exists.mp (h.resolve_base hf)
    simp only [State.towerLevelSound, he, Bool.and_eq_true]
    refine ⟨State.towerSound_iff.mpr ⟨f, hext.fieldOf hf, hover⟩, ?_⟩
    rw [validTowers_setTwr hnone, State.resolve_tower he, hext.resolve hg]
    rfl
  · exact towerLevelSound_of_none (by rw [State.twrAt_setTwr, if_neg hkx, hk])

theorem State.Inv.setCrv (h : s.Inv) {n : CrvIx} {e : Crv} (hnone : s.crvAt n = none) (he : s.curveSound e = true) :
    (s.setCrv n e).Inv := by
  have hext : Extends s (s.setCrv n e) := ⟨.setCrv hnone, rfl, le_rfl⟩
  refine h.of_extends hext rfl h.cm (fun _ hk => ctxEntrySound_of_none hk) (fun _ hk => towerLevelSound_of_none hk)
    (fun k hk => ?_) (fun hk => pairingSound_of_none hk) fun _ => .inl rfl
  by_cases hkn : k = n
  · simp only [State.curveEntrySound, State.crvAt_setCrv, if_pos hkn]
    exact hext.curveSound he
  · exact curveEntrySound_of_none (by rw [State.crvAt_setCrv, if_neg hkn, hk])

theorem State.Inv.setPrg (h : s.Inv) {e : Prg} (hnone : s.prg = none) (he : (s.setPrg e).pairingSound = true) :
    (s.setPrg e).Inv :=
  h.of_extends ⟨.setPrg hnone, rfl, le_rfl⟩ rfl h.cm (fun _ hk => ctxEntrySound_of_none hk) (fun _ hk => towerLevelSound_of_none hk)
    (fun _ hk => curveEntrySound_of_none hk) (fun _ => he) fun _ => .inl rfl

theorem State.Inv.setPre (h : s.Inv) {n : SlotIx} {e : Pre} (he : (s.setPre n e).slotSound n = true) :
    (s.setPre n e).Inv := by
  refine h.of_extends ⟨.of_eq rfl rfl rfl rfl, rfl, le_rfl⟩ rfl h.cm (fun _ hk => ctxEntrySound_of_none hk)
    (fun _ hk => towerLevelSound_of_none hk) (fun _ hk => curveEntrySound_of_none hk) (fun hk => pairingSound_of_none hk) fun k => ?_
  by_cases hk : k = n
  · exact .inr (hk ▸ he)
  · exact .inl (by rw [State.preAt_setPre, if_neg hk])

/-! ### What the definition commands write is sound -/

/-- The entry of TWRDEF, over a valid base with its operands tagged (R242). -/
theorem State.Inv.newTwr_over (h : s.Inv) {rs1 rs2 : RegIx} {deg : Degree} {base : FieldSel} {f : FieldView}
    (hf : s.fieldOf (tierOf base) = some f) (hfit1 : rs1.toNat + f.k ≤ 64)
    (hfit2 : rs2.toNat + (degreeNat deg - 1) * f.k ≤ 64) (htag1 : s.tagged f rs1.toNat f.k = true)
    (htag2 : s.tagged f rs2.toNat ((degreeNat deg - 1) * f.k) = true)
    (hres : isNonResidue f.fld deg (s.elemAt f rs1.toNat) = true) : TowerOver (s.newTwr rs1 rs2 deg base f) f := by
  refine ⟨rfl, rfl, h.elemAt_ok hf hfit1 (State.tagged_iff.mp htag1), ?_, fun g hg => ?_, hres⟩
  · simp only [State.newTwr, State.elemsAt, List.length_map, List.length_range]
  · simp only [State.newTwr, State.elemsAt, List.mem_map, List.mem_range] at hg
    obtain ⟨j, hj, rfl⟩ := hg
    exact h.elemAt_ok_block hf hfit2 htag2 hj

theorem State.Inv.newCrv_sound (h : s.Inv) {rs1 rs2 : RegIx} {twist : BitVec 2} {fd : FieldSel} {f : FieldView}
    (hf : s.fieldOf (tierOf fd) = some f) (hfit : rs1.toNat + 2 * f.k ≤ 64)
    (htag : s.tagged f rs1.toNat (2 * f.k) = true) (hr : s.val rs2 ≠ 0) :
    s.curveSound (newCrv fd twist (s.pairAt f rs1.toNat) (s.val rs2)) = true := by
  have ha := h.elemAt_ok_block (i := 0) hf hfit htag (by decide)
  have hb := h.elemAt_ok_block (i := 1) hf hfit htag (by decide)
  rw [Nat.zero_mul, Nat.add_zero] at ha
  rw [Nat.one_mul] at hb
  simp only [State.curveSound, newCrv, hf, Bool.and_eq_true, decide_eq_true_eq]
  exact ⟨⟨⟨⟨ha, hb⟩, decide_eq_true (Nat.pos_of_ne_zero hr)⟩, decide_eq_true (h.val_lt rs2)⟩, trivial⟩

theorem State.Inv.setPrg_sound (h : s.Inv) {g1 g2 : CrvIx} {neg : Bool} {rs1 rs2 : RegIx} {x : TwrIx} {c1 c2 : CurveView}
    {gt : FieldView} (hnone : s.prg = none) (hc1 : s.curveOf g1 = some c1) (hc2 : s.curveOf g2 = some c2)
    (hgt : s.fieldOf (.tower x) = some gt) (hstr : pairingStructure s c1 c2 gt x = true) (hfit : rs2.toNat + gt.k ≤ 64)
    (htag : s.tagged gt rs2.toNat gt.k = true) (hloop : s.val rs1 ≠ 0)
    (hdvd : (gt.ctx.m ^ gt.k - 1) % c1.crv.r = 0)
    (htw : twistEqualities gt.fld c2.crv.twist c1.crv.a c1.crv.b c2.crv.a c2.crv.b (s.elemAt gt rs2.toNat) = true) :
    (s.setPrg (newPrg g1 g2 neg x (s.val rs1) (s.elemAt gt rs2.toNat)
      ((gt.ctx.m ^ gt.k - 1) / c1.crv.r))).pairingSound = true := by
  have homega := h.elemAt_ok hgt hfit (State.tagged_iff.mp htag)
  generalize hu : s.setPrg _ = u
  have hext : Extends s u := hu ▸ ⟨.setPrg hnone, rfl, le_rfl⟩
  have hprg : u.prg = some (newPrg g1 g2 neg x (s.val rs1) (s.elemAt gt rs2.toNat)
      ((gt.ctx.m ^ gt.k - 1) / c1.crv.r)) := hu ▸ rfl
  have hpairing : u.pairingOf = some ⟨newPrg g1 g2 neg x (s.val rs1) (s.elemAt gt rs2.toNat)
      ((gt.ctx.m ^ gt.k - 1) / c1.crv.r), c1, c2, gt⟩ := by
    simp only [State.pairingOf, hprg, newPrg, hext.curveOf hc1, hext.curveOf hc2, hext.fieldOf hgt]
  have hlt : s.val rs1 < 2 ^ u.par.bits := hext.par ▸ h.val_lt rs1
  simp only [State.pairingSound, hprg, hpairing, Bool.and_eq_true]
  exact ⟨⟨⟨⟨⟨⟨hext.pairingStructure hstr, decide_eq_true (Nat.pos_of_ne_zero hloop)⟩, decide_eq_true hlt⟩, homega⟩,
    decide_eq_true hdvd⟩, decide_eq_true rfl⟩, htw⟩

/-- As many lines as steps, and one more for each one bit (R324). -/
theorem lineSteps_length {f : Fld} {a x2 y2 : Elem} {loop n : Nat} {p : JPoint} {lines : List Line}
    (h : lineSteps f a x2 y2 loop n p = some lines) :
    lines.length = n + ((List.range n).filter (fun i => loop.testBit i)).length := by
  induction n generalizing p lines with
  | zero => cases h; rfl
  | succ n ih =>
    rw [List.range_succ, List.filter_append, List.length_append]
    rw [lineSteps] at h
    split at h
    · cases h
    · split at h
      next hbit =>
        split at h
        · cases h
        · split at h
          · cases h
          next rest hrest =>
            cases h
            simp [hbit, ih hrest]
            omega
      next hbit =>
        split at h
        · cases h
        next rest hrest =>
          cases h
          simp [hbit, ih hrest]
          omega

theorem precomputeG2_length {f : Fld} {a b : Elem} {loop : Nat} {q : JPoint} {lines : List Line}
    (h : precomputeG2 f a b loop q = some lines) : lines.length = lineCount loop := by
  rw [precomputeG2] at h
  split at h
  · cases h
  · exact lineSteps_length h

/-! ### Commands -/

theorem State.Inv.faulted (h : s.Inv) (k : FaultKind) (info : Word) : (s.faulted k info).Inv := h.takeFault k info

theorem pc_add_one_le {pc : BitVec 19} (h : pc.toNat < 2 ^ 18) : (pc + 1#19).toNat ≤ 2 ^ 18 := by
  simp only [BitVec.toNat_add, BitVec.toNat_ofNat]
  omega

/-- PC moves on from a command inside CM (R27). -/
theorem State.Inv.next (ht : t.Inv) (hpc : s.pc.toNat < 2 ^ 18) : (s.next t).Inv :=
  ht.of_data rfl rfl rfl rfl rfl rfl rfl ht.regs ht.acc (pc_add_one_le hpc) ht.faultRegs ht.window ht.dm

/-- PC stays inside CM or at its end (R27). -/
theorem exec_pc_le {i : Instr} (hpc : s.pc.toNat < 2 ^ 18) (h : exec i s = .next t) : t.pc.toNat ≤ 2 ^ 18 := by
  rcases exec_controlFrame h with ⟨k, info, rfl⟩ | ⟨-, -, -, ⟨-, -, heq⟩ | ⟨-, -, heq | ⟨target, heq, -⟩⟩⟩
  · exact hpc.le
  · rw [heq]; exact hpc.le
  · rw [heq]; exact pc_add_one_le hpc
  · rw [heq]; exact target.isLt.le

theorem State.Inv.of_update (h : s.Inv) {first count : Nat} (hu : Update first count s t) : t.Inv := by
  have hregs := hu.regs h
  rw [hu.rest] at hregs ⊢
  exact h.of_data rfl rfl rfl rfl rfl rfl rfl hregs h.acc h.pc h.faultRegs h.window h.dm

theorem State.Inv.setAcc (h : s.Inv) {v : Nat} (hv : v < 2 ^ (2 * s.par.bits)) : State.Inv { s with acc := v } :=
  h.of_data rfl rfl rfl rfl rfl rfl rfl h.regs hv h.pc h.faultRegs h.window h.dm

theorem State.Inv.setWindow (h : s.Inv) {w : BitVec 4} (h0 : w.toNat ≠ 0) (hw : w.toNat ≤ s.par.wMax) :
    State.Inv { s with wnafw := w } := by
  refine h.of_data rfl rfl rfl rfl rfl rfl rfl h.regs h.acc h.pc h.faultRegs ?_ h.dm
  simp only [State.windowSound, Bool.or_eq_true, Bool.and_eq_true, decide_eq_true_eq]
  exact .inr ⟨Nat.pos_of_ne_zero h0, hw⟩

theorem State.Inv.setPc (h : s.Inv) {pc : BitVec 19} (hpc : pc.toNat ≤ 2 ^ 18) : State.Inv { s with pc := pc } :=
  h.of_data rfl rfl rfl rfl rfl rfl rfl h.regs h.acc hpc h.faultRegs h.window h.dm

theorem State.Inv.setFlags (h : s.Inv) (v : Nat) : (s.setFlags v).Inv :=
  h.of_data rfl rfl rfl rfl rfl rfl rfl h.regs h.acc h.pc h.faultRegs h.window h.dm

theorem State.Inv.putBytes (h : s.Inv) {addr : Nat} {bytes : List Byte} (hadm : s.admits addr bytes.length = true) :
    (s.putBytes addr bytes).Inv :=
  h.of_data rfl rfl rfl rfl rfl rfl rfl h.regs h.acc h.pc h.faultRegs h.window (State.memorySound_putBytes h.dm hadm)

theorem State.Inv.writeMem (h : s.Inv) {addr : Nat} {bytes : List Byte} (ht : s.writeMem addr bytes = .ok t) : t.Inv := by
  obtain ⟨hadm, rfl⟩ := State.writeMem_eq_ok.mp ht
  exact h.putBytes hadm

/-- Where the body `a` completes, it leaves a sound state. -/
def GivesInv (a : Attempt State) : Prop := ∀ t, a = .ok t → t.Inv

theorem GivesInv.ok (h : t.Inv) : GivesInv (.ok t) := by
  rintro _ ⟨⟩
  exact h

theorem GivesInv.bind {α : Type} {x : Attempt α} {f : α → Attempt State} (h : ∀ a, x = .ok a → GivesInv (f a)) :
    GivesInv (x >>= f) := by
  intro t ht
  obtain ⟨a, hx, hf⟩ := Attempt.bind_eq_ok.mp ht
  exact h a hx t hf

theorem inv_of_conclude {i : Instr} {a : Attempt State} (hs : s.Inv) (hpc : s.pc.toNat < 2 ^ 18) (ha : GivesInv a)
    (h : conclude i s a = .next t) : t.Inv := by
  rcases faulted_or_ok_of_conclude h with ⟨k, info, rfl⟩ | ⟨u, hu, rfl⟩
  · exact hs.faulted k info
  · exact (ha u hu).next hpc

/-- Two halves of BITS bits make an accumulator (R26). -/
theorem halves_lt {n high low : Nat} (hh : high < 2 ^ n) (hl : low < 2 ^ n) : high * 2 ^ n + low < 2 ^ (2 * n) := by
  rw [Nat.two_mul, pow_add]
  calc high * 2 ^ n + low < high * 2 ^ n + 2 ^ n := Nat.add_lt_add_left hl _
    _ = (high + 1) * 2 ^ n := by ring
    _ ≤ 2 ^ n * 2 ^ n := Nat.mul_le_mul_right _ hh

theorem State.Inv.acc_high (h : s.Inv) : s.acc / 2 ^ s.par.bits < 2 ^ s.par.bits := by
  refine Nat.div_lt_of_lt_mul ?_
  rw [← pow_add, ← Nat.two_mul]
  exact h.acc

theorem csrw_givesInv (h : s.Inv) (rd : RegIx) (csr : Imm18) :
    GivesInv (raiseIf (!csrWritable csr) .illegalCommand >>= fun _ =>
      raiseIf (decide (2 ^ 32 ≤ s.val rd)) .outOfRange >>= fun _ =>
      if csr.toNat = 6 then
        raiseIf (decide (16 ≤ s.val rd)) .invalidParameter >>= fun _ => .ok (s.setFlags (s.val rd))
      else
        raiseIf (decide (s.val rd = 0) || decide (s.par.wMax < s.val rd)) .invalidParameter >>= fun _ =>
          .ok { s with wnafw := BitVec.ofNat 4 (s.val rd) }) := by
  refine .bind fun _ _ => .bind fun _ _ => ?_
  split
  · exact .bind fun _ _ => .ok (h.setFlags _)
  · refine .bind fun _ hw => .ok ?_
    simp only [raiseIf_eq_ok, Bool.or_eq_false_iff, decide_eq_false_iff_not, Nat.not_lt] at hw
    obtain ⟨h0, hmax⟩ := hw
    have hpar := h.par
    simp only [Params.valid, Bool.and_eq_true, decide_eq_true_eq] at hpar
    have hw : (BitVec.ofNat 4 (s.val rd)).toNat = s.val rd := by
      rw [BitVec.toNat_ofNat, Nat.mod_eq_of_lt (by omega)]
    exact h.setWindow (by rwa [hw]) (by rwa [hw])

/-- Every command takes a sound running state inside CM to a sound state. -/
theorem exec_inv {i : Instr} (hs : s.Inv) (hrun : s.run = .run) (hpc : s.pc.toNat < 2 ^ 18) (h : exec i s = .next t) :
    t.Inv := by
  by_cases hi : writesRegistersOnly i = true
  · rcases exec_answersUpdate hi h with ⟨u, hu, rfl⟩ | ⟨k, info, rfl⟩
    · exact (hs.of_update hu).next hpc
    · exact hs.faulted k info
  · cases i with
    | halt =>
      cases h
      refine hs.of_data rfl rfl rfl rfl rfl rfl rfl hs.regs hs.acc hs.pc ?_ hs.window hs.dm
      obtain ⟨herr, hepc, heinfo⟩ := hs.faultRegs_of_run hrun
      simp [State.faultRegsSound, herr, hepc, heinfo]
    | jmp target =>
      have hle := exec_pc_le hpc h
      cases h
      exact hs.setPc hle
    | bs f target =>
      obtain ⟨u, hu, hrest, -⟩ := exec_bs s f target
      obtain rfl : u = t := Host.Outcome.next.inj (hu.symm.trans h)
      exact hrest ▸ hs.setPc (exec_pc_le hpc h)
    | bc f target =>
      obtain ⟨u, hu, hrest, -⟩ := exec_bc s f target
      obtain rfl : u = t := Host.Outcome.next.inj (hu.symm.trans h)
      exact hrest ▸ hs.setPc (exec_pc_le hpc h)
    | setal rs1 =>
      exact inv_of_conclude (i := .setal rs1) hs hpc (.ok (hs.setAcc (halves_lt hs.acc_high (hs.val_lt rs1)))) h
    | setah rs1 =>
      exact inv_of_conclude (i := .setah rs1) hs hpc (.ok (hs.setAcc (halves_lt (hs.val_lt rs1) (Nat.mod_lt _ (Nat.two_pow_pos _))))) h
    | mul rs1 rs2 =>
      refine inv_of_conclude (i := .mul rs1 rs2) hs hpc (.ok (hs.setAcc ?_)) h
      rw [Nat.two_mul, pow_add]
      exact Nat.mul_lt_mul'' (hs.val_lt rs1) (hs.val_lt rs2)
    | csrw rd csr => exact inv_of_conclude hs hpc (csrw_givesInv hs rd csr) h
    | st => exact inv_of_conclude hs hpc (fun _ => hs.writeMem) h
    | fenc => exact inv_of_conclude hs hpc (.bind fun _ _ _ => hs.writeMem) h
    | wnafenc =>
      exact inv_of_conclude hs hpc (.bind fun _ _ => .bind fun _ _ => .bind fun _ hu =>
        .ok ((hs.writeMem hu).of_update .setRaw)) h
    | ctxdef c rs1 st =>
      rcases exec_ctxdef_next h with ⟨k, info, rfl⟩ | ⟨hnone, hadm, rfl⟩
      · exact hs.faulted k info
      · exact (hs.setCtx hnone (makeCtx_sound hadm (hs.val_lt rs1))).next hpc
    | twrdef =>
      rcases exec_twrdef_next h with ⟨k, info, rfl⟩ | ⟨hnone, f, hf, hfit1, hfit2, htag1, htag2, hres, rfl⟩
      · exact hs.faulted k info
      · exact (hs.setTwr hnone hf (hs.newTwr_over hf hfit1 hfit2 htag1 htag2 hres)).next hpc
    | crvdef =>
      rcases exec_crvdef_next h with ⟨k, info, rfl⟩ | ⟨hnone, f, hf, hfit, htag, hr, rfl⟩
      · exact hs.faulted k info
      · exact (hs.setCrv hnone (hs.newCrv_sound hf hfit htag hr)).next hpc
    | prgdef g1 g2 neg rs1 rs2 x =>
      rcases exec_prgdef_next h with
        ⟨k, info, rfl⟩ | ⟨hnone, c1, c2, gt, hc1, hc2, hgt, hstr, hfit, htag, hloop, hdvd, htw, rfl⟩
      · exact hs.faulted k info
      · exact (hs.setPrg hnone (hs.setPrg_sound hnone hc1 hc2 hgt hstr hfit htag hloop hdvd htw)).next hpc
    | precg1 n rs1 =>
      rcases exec_precg1_next h with ⟨k, info, rfl⟩ | ⟨v, q, hv, rfl⟩
      · exact hs.faulted k info
      · refine (hs.setPre ?_).next hpc
        simp only [State.slotSound, State.preAt_setPre, if_true, State.setPre_prg, (State.pairingOf_parts hv).1,
          Option.isSome_some]
    | precg2 n rs1 =>
      rcases exec_precg2_next h with ⟨k, info, rfl⟩ | ⟨v, q, lines, hv, hlines, rfl⟩
      · exact hs.faulted k info
      · refine (hs.setPre ?_).next hpc
        simp only [State.slotSound, State.preAt_setPre, if_true, State.setPre_prg, (State.pairingOf_parts hv).1,
          precomputeG2_length hlines, decide_true]
    | _ => exact absurd rfl hi

theorem Params.cmWords_le {p : Params} (h : p.valid = true) : p.cmWords ≤ 2 ^ 18 := by
  simp only [Params.valid, Bool.and_eq_true, decide_eq_true_eq] at h
  omega

theorem step_inv (hs : s.Inv) (h : step s = .next t) : t.Inv := by
  rcases step_cases h with ⟨-, rfl⟩ | ⟨-, k, info, rfl⟩ | ⟨hrun, hpc, i, -, hi⟩
  · exact hs
  · exact hs.faulted k info
  · exact exec_inv hs hrun (hpc.trans_le (Params.cmWords_le hs.par)) hi

theorem step_par (h : step s = .next t) : t.par = s.par := by
  rcases step_cases h with ⟨-, rfl⟩ | ⟨-, k, info, rfl⟩ | ⟨-, -, i, -, hi⟩
  · rfl
  · rfl
  · exact (exec_frame hi).par

/-- Settles O9. -/
theorem stepKeepsSoundness : Obligations.StepKeepsSoundness := fun _ _ hs h => ⟨step_inv hs h, step_par h⟩

end

end Sys2Proof.Machine
end

section
/-! Every action of the host and every sequence of events takes a sound state to a sound state (R25, R43 to R47, R77, R87,
R390). -/

namespace Sys2Proof.Machine

variable {s t : State}

/-! ### Memories -/

theorem State.Inv.setCm (h : s.Inv) {cm : List (Nat × Word)} (hcm : memorySound s.par.cmWords cm = true) :
    State.Inv { s with cm := cm } :=
  h.of_extends ⟨.of_eq rfl rfl rfl rfl, rfl, le_rfl⟩ rfl hcm (fun _ hk => ctxEntrySound_of_none hk)
    (fun _ hk => towerLevelSound_of_none hk) (fun _ hk => curveEntrySound_of_none hk) (fun hk => pairingSound_of_none hk)
    fun _ => .inl rfl

theorem State.Inv.setDm (h : s.Inv) {dm : List Host.Cell} {fresh : Nat} (hdm : memorySound s.par.dmBytes dm = true) :
    State.Inv { s with dm := dm, fresh := fresh } :=
  h.of_data rfl rfl rfl rfl rfl rfl rfl h.regs h.acc h.pc h.faultRegs h.window hdm

theorem State.Inv.putWord (h : s.Inv) (i : Nat) (w : Word) : (s.putWord i w).Inv := by
  rw [State.putWord]
  split
  next hi => exact h.setCm (memorySound_store h.cm hi)
  next => exact h

theorem State.Inv.putByte (h : s.Inv) (a : Nat) (b : Byte) : (s.putByte a b).Inv := by
  rw [State.putByte]
  split
  next ha => exact h.setDm (memorySound_store h.dm ha)
  next => exact h

/-! ### Reset -/

theorem State.spoil_sound {l : List Nat} (hl : ∀ a ∈ l, a < s.par.dmBytes)
    (h : memorySound s.par.dmBytes s.dm = true) : memorySound s.par.dmBytes (s.spoil l).dm = true := by
  induction l generalizing s with
  | nil => exact h
  | cons a rest ih =>
    obtain ⟨ha, hrest⟩ := List.forall_mem_cons.mp hl
    exact ih (s := { s with dm := _ }) hrest (memorySound_store h ha)

/-- An abandoned command was writing inside DM. -/
theorem State.abandoned_lt : ∀ a ∈ s.abandoned, a < s.par.dmBytes := by
  intro a ha
  obtain ⟨-, i, -, htarget⟩ := State.mem_abandoned ha
  obtain ⟨addr, n, -, ⟨-, hin⟩, -, hlt, -⟩ := targetBytes_dataAccess htarget
  omega

theorem State.Inv.srst (h : s.Inv) : s.srst.Inv :=
  ((resetWith_inv s.par h.par).setCm h.cm).setDm (State.spoil_sound State.abandoned_lt h.dm)

/-! ### CTRL -/

theorem State.faultRegsSound_of_not_fault (hrun : s.run ≠ .fault) :
    s.faultRegsSound = true ↔ s.err = 0#8 ∧ s.epc = 0#19 ∧ s.einfo = 0#32 := by
  cases h : s.run with
  | fault => exact absurd h hrun
  | idle | run | halted => simp [State.faultRegsSound, h, and_assoc]

/-- A change of STATE, IE and the fault registers keeps soundness when the fault registers still fit STATE. -/
theorem State.Inv.of_control (h : s.Inv)
    (hrest : t = { s with run := t.run, ie := t.ie, err := t.err, epc := t.epc, einfo := t.einfo })
    (hfault : t.faultRegsSound = true) : t.Inv := by
  rw [hrest] at hfault ⊢
  exact h.of_data rfl rfl rfl rfl rfl rfl rfl h.regs h.acc h.pc hfault h.window h.dm

theorem State.Inv.clearFault (h : s.Inv) : s.clearFault.Inv := by
  rw [State.clearFault]
  split
  · exact h.of_control rfl rfl
  · exact h

theorem State.Inv.setIe (h : s.Inv) (ie : Bool) : State.Inv { s with ie := ie } := h.of_control rfl h.faultRegs

theorem State.Inv.start (h : s.Inv) : s.start.Inv := by
  have hregs := h.faultRegs
  cases hrun : s.run with
  | run | fault => simpa only [State.start, hrun] using h
  | idle | halted =>
    rw [State.faultRegsSound_of_not_fault (by rw [hrun]; decide)] at hregs
    simp only [State.start, hrun]
    exact h.of_control rfl ((State.faultRegsSound_of_not_fault RunState.noConfusion).mpr hregs)

theorem State.Inv.writeCtrl (h : s.Inv) (v : Word) : (s.writeCtrl v).Inv := by
  have hsrst : (if v.getLsbD 3 then s.srst else s).Inv := by
    split
    · exact h.srst
    · exact h
  have hclr : ((if v.getLsbD 3 then s.srst else s).afterClrIe v).Inv := by
    refine State.Inv.setIe ?_ _
    split
    · exact hsrst.clearFault
    · exact hsrst
  rw [State.writeCtrl_eq]
  cases v.getLsbD 0 with
  | false => exact hclr
  | true => exact hclr.start

/-! ### The host -/

theorem State.Inv.writeWnafw (h : s.Inv) (v : Word) : (s.writeWnafw v).Inv := by
  simp only [State.writeWnafw]
  split
  · exact h
  next hw =>
    rw [not_or, Nat.not_lt] at hw
    exact h.setWindow hw.1 hw.2

theorem hostEffect_inv {a : HostAct} (h : s.Inv) (heffect : HostEffect s a t) : t.Inv := by
  cases heffect with
  | ignored => exact h
  | flags v => exact h.setFlags _
  | wnafw v => exact h.writeWnafw v
  | pc v =>
    refine h.setPc ?_
    rw [target_toNat]
    exact (v.extractLsb' 0 18).isLt.le
  | ctrl v => exact h.writeCtrl v
  | word _ i w => exact h.putWord i w
  | byte _ i b => exact h.putByte i b
  | reset => exact h.srst

theorem State.writeCtrl_par (s : State) (v : Word) : (s.writeCtrl v).par = s.par := by
  have hsrst : (if v.getLsbD 3 then s.srst else s).par = s.par := by split <;> rfl
  rw [State.writeCtrl_eq, ← hsrst]
  simp only
  rw [State.start_eq, State.afterClrIe_eq]
  split <;> rfl

theorem hostEffect_par {a : HostAct} (heffect : HostEffect s a t) : t.par = s.par := by
  cases heffect with
  | ignored | flags | pc | reset => rfl
  | wnafw v => simp only [State.writeWnafw]; split <;> rfl
  | ctrl v => exact s.writeCtrl_par v
  | word _ i w => rw [s.putWord_eq]
  | byte _ i b => rw [s.putByte_eq]

/-- Settles O10. -/
theorem hostKeepsSoundness : Obligations.HostKeepsSoundness := fun s a h =>
  ⟨hostEffect_inv h (hostAct_effect s a), hostEffect_par (hostAct_effect s a)⟩

/-! ### Runs -/

theorem State.Inv.after (h : s.Inv) (e : Event) : (s.after e).Inv := by
  cases e with
  | engine => exact step_inv h (step_next s)
  | host a => exact hostEffect_inv h (hostAct_effect s a)

theorem State.Inv.afterAll (h : s.Inv) (events : List Event) : (s.afterAll events).Inv := by
  induction events generalizing s with
  | nil => exact h
  | cons e rest ih => exact ih (h.after e)

/-- Settles O11, along the events from the state after reset. -/
theorem taggedRegistersStayReduced : Obligations.TaggedRegistersStayReduced :=
  fun par hpar events _ _ htag => ((resetWith_inv par hpar).afterAll events).tagged_lt htag

end Sys2Proof.Machine
end

section
/-! TWRDEF, CRVDEF and PRGDEF: their faults in order and the entries they write (44_extension_field.md section 1,
45_curve.md section 1, 47_pairing.md section 1). -/

namespace Sys2Proof.Machine

variable {s t : State} {f : FieldView}

/-! ### TWRDEF (R242) -/

theorem isNonResidue_eq_true {f : Fld} {d : Degree} {beta : Elem} (hb : f.elemOk beta = true) :
    isNonResidue f d beta = true ↔
      beta ≠ f.zero ∧ degreeNat d ∣ f.char ^ f.degree - 1 ∧
        f.pow beta ((f.char ^ f.degree - 1) / degreeNat d) ≠ f.one := by
  simp only [isNonResidue, Bool.and_eq_true, Bool.not_eq_true', bne_iff_ne, beq_iff_eq, Nat.dvd_iff_mod_eq_zero, ne_eq,
    ← isZeroElem_iff (Fld.elemOk_iff.mp hb).1, Bool.not_eq_true, and_assoc]

section
variable {lvl : TwrIx} {rs1 rs2 : RegIx} {deg : Degree} {base : FieldSel}

/-- The part of TWRDEF after its base is known to be valid. -/
def twrdefTail (s : State) (lvl : TwrIx) (rs1 rs2 : RegIx) (deg : Degree) (base : FieldSel) (f : FieldView) :
    Attempt State := do
  raiseIf (runsPast rs1.toNat f.k || runsPast rs2.toNat ((degreeNat deg - 1) * f.k)) .illegalCommand
  raiseIf (!s.tagged f rs1.toNat f.k || !s.tagged f rs2.toNat ((degreeNat deg - 1) * f.k)) .incompatibleContext
  raiseIf (!isNonResidue f.fld deg (s.elemAt f rs1.toNat)) .invalidParameter
  .ok (s.setTwr lvl (s.newTwr rs1 rs2 deg base f))

theorem exec_twrdef_tail (hlegal : base.legal = true) (hnone : s.twrAt lvl = none)
    (hf : s.fieldOf (tierOf base) = some f) :
    exec (.twrdef lvl rs1 rs2 deg base) s =
      conclude (.twrdef lvl rs1 rs2 deg base) s (twrdefTail s lvl rs1 rs2 deg base f) := by
  have hneed : s.needField (tierOf base) = .ok f := State.needField_eq_ok.mpr hf
  change conclude _ s (raiseIf (!base.legal) .illegalCommand >>= fun _ =>
    raiseIf (s.twrAt lvl).isSome .invalidParameter >>= fun _ => s.needField (tierOf base) >>= fun f =>
      twrdefTail s lvl rs1 rs2 deg base f) = _
  rw [hlegal, hnone, hneed]
  rfl

theorem operandsFit_twrdef :
    (runsPast rs1.toNat f.k || runsPast rs2.toNat ((degreeNat deg - 1) * f.k)) = false ↔
      OperandsFit f [(rs1, 1), (rs2, degreeNat deg - 1)] := by
  rw [operandsFit_cons, operandsFit_cons, operandsFit_nil]
  simp [runsPast]

theorem operandsTagged_twrdef :
    (!s.tagged f rs1.toNat f.k || !s.tagged f rs2.toNat ((degreeNat deg - 1) * f.k)) = false ↔
      OperandsTagged s f [(rs1, 1), (rs2, degreeNat deg - 1)] := by
  rw [operandsTagged_cons, operandsTagged_cons, operandsTagged_nil]
  simp

/-- Settles O37. -/
theorem defineTower : Obligations.DefineTower := by
  intro s h lvl rs1 rs2 deg base
  refine ⟨fun hlegal => faults_of_body rfl (by rw [hlegal]; rfl), fun hlegal hbad => faults_of_body rfl ?_,
    fun f hlegal hnone hf => ⟨fun hfit => ?_, fun hfit htag => ?_, fun hfit htag => ?_⟩⟩
  · rw [hlegal]
    by_cases hnone : s.twrAt lvl = none
    · have hfield := hbad.resolve_left (not_not.mpr hnone)
      rw [hnone, State.needField, hfield]
      rfl
    · rw [Option.isSome_iff_ne_none.mpr hnone]
      rfl
  · rw [← operandsFit_twrdef, Bool.not_eq_false] at hfit
    exact faults_of_body (exec_twrdef_tail hlegal hnone hf) (by rw [twrdefTail, hfit]; rfl)
  · rw [← operandsFit_twrdef] at hfit
    rw [← operandsTagged_twrdef, Bool.not_eq_false] at htag
    exact faults_of_body (exec_twrdef_tail hlegal hnone hf) (by rw [twrdefTail, hfit, htag]; rfl)
  · obtain ⟨hfit1, hfit2, -⟩ := by simpa only [operandsFit_cons, Nat.one_mul] using hfit
    obtain ⟨htag1, htag2, -⟩ := by simpa only [operandsTagged_cons, Nat.one_mul] using htag
    have hsound := h.field_sound hf
    have hbeta := isNonResidue_eq_true (d := deg) (h.elemAt_ok hf hfit1 (State.tagged_iff.mp htag1))
    rw [hsound.char, hsound.degree] at hbeta
    rw [← operandsFit_twrdef] at hfit
    rw [← operandsTagged_twrdef] at htag
    refine ⟨fun hbad => faults_of_body (exec_twrdef_tail hlegal hnone hf) ?_, fun h0 hdvd hne => ?_⟩
    · have hres : isNonResidue f.fld deg (s.elemAt f rs1.toNat) = false := by
        rw [Bool.eq_false_iff, Ne, hbeta]
        tauto
      rw [twrdefTail, hfit, htag, hres]
      rfl
    · have hres := hbeta.mpr ⟨h0, hdvd, hne⟩
      have hover := h.newTwr_over hf hfit1 hfit2 htag1 htag2 hres
      have hexec := exec_of_body (exec_twrdef_tail (lvl := lvl) (rs1 := rs1) (rs2 := rs2) (deg := deg) hlegal hnone hf)
        (by rw [twrdefTail, hfit, htag, hres]; rfl)
      have hat : (s.setTwr lvl (s.newTwr rs1 rs2 deg base f)).twrAt lvl = some (s.newTwr rs1 rs2 deg base f) := by
        rw [State.twrAt_setTwr, if_pos rfl]
      have hext : Extends s (s.setTwr lvl (s.newTwr rs1 rs2 deg base f)) :=
        ⟨.setTwr hnone, rfl, by rw [validTowers_setTwr hnone]; omega⟩
      obtain ⟨b, hb, -, hfield⟩ := (h.setTwr hnone hf hover).tower_field hat
      obtain rfl : f = b := Option.some.inj ((hext.fieldOf hf).symm.trans hb)
      have hview := State.fieldOf_congr (s := s.setTwr lvl (s.newTwr rs1 rs2 deg base f))
        (t := s.next (s.setTwr lvl (s.newTwr rs1 rs2 deg base f))) rfl rfl (.tower lvl)
      refine ⟨_, s.newTwr rs1 rs2 deg base f, hexec, rfl, hat, fun n hn => ?_, rfl, rfl, rfl, rfl, rfl, rfl, _,
        hview.trans hfield, rfl, rfl, rfl, ?_, ?_⟩
      · exact (State.twrAt_setTwr ..).trans (if_neg hn)
      · rintro rfl
        simp [Twr.fldOver, State.newTwr, State.elemsAt, degreeNat]
      · rintro rfl
        simp [Twr.fldOver, State.newTwr, State.elemsAt, degreeNat]

end

/-! ### CRVDEF (R270) -/

section
variable {ix : CrvIx} {rs1 rs2 : RegIx} {twist : BitVec 2} {fd : FieldSel}

/-- The part of CRVDEF after its field is known to be valid. -/
def crvdefTail (s : State) (ix : CrvIx) (rs1 rs2 : RegIx) (twist : BitVec 2) (fd : FieldSel) (f : FieldView) :
    Attempt State := do
  raiseIf (runsPast rs1.toNat (2 * f.k)) .illegalCommand
  let ab ← s.needPair f rs1.toNat
  let r ← s.needRaw rs2
  raiseIf (decide (r = 0)) .invalidParameter
  .ok (s.setCrv ix (newCrv fd twist ab r))

theorem twistLegal_iff : twistLegal twist = true ↔ twist ≠ 3#2 := by simp [twistLegal]

theorem exec_crvdef_tail (htwist : twist ≠ 3#2) (hlegal : fd.legal = true) (hnone : s.crvAt ix = none)
    (hf : s.fieldOf (tierOf fd) = some f) :
    exec (.crvdef ix rs1 rs2 twist fd) s =
      conclude (.crvdef ix rs1 rs2 twist fd) s (crvdefTail s ix rs1 rs2 twist fd f) := by
  have hneed : s.needField (tierOf fd) = .ok f := State.needField_eq_ok.mpr hf
  change conclude _ s (raiseIf (!twistLegal twist || !fd.legal) .illegalCommand >>= fun _ =>
    raiseIf (s.crvAt ix).isSome .invalidParameter >>= fun _ => s.needField (tierOf fd) >>= fun f =>
      crvdefTail s ix rs1 rs2 twist fd f) = _
  rw [twistLegal_iff.mpr htwist, hlegal, hnone, hneed]
  rfl

theorem operandsFit_pair : runsPast rs1.toNat (2 * f.k) = false ↔ OperandsFit f [(rs1, 2)] := by
  rw [operandsFit_cons, operandsFit_nil]
  simp [runsPast]

/-- Settles O43. -/
theorem defineCurve : Obligations.DefineCurve := by
  intro s h ix rs1 rs2 twist fd
  refine ⟨fun hbad => faults_of_body rfl ?_, fun htwist hlegal hbad => faults_of_body rfl ?_,
    fun f htwist hlegal hnone hf => ⟨fun hfit => ?_, fun hfit htag => ?_, fun hfit htag hraw => ⟨fun hr => ?_, fun hr => ?_⟩⟩⟩
  · have hillegal : (!twistLegal twist || !fd.legal) = true := by
      rw [Bool.or_eq_true, Bool.not_eq_true', Bool.not_eq_true', Bool.eq_false_iff, Ne, twistLegal_iff, not_not]
      exact hbad
    rw [hillegal]
    rfl
  · rw [twistLegal_iff.mpr htwist, hlegal]
    by_cases hnone : s.crvAt ix = none
    · rw [hnone, State.needField, hbad.resolve_left (not_not.mpr hnone)]
      rfl
    · rw [Option.isSome_iff_ne_none.mpr hnone]
      rfl
  · rw [← operandsFit_pair, Bool.not_eq_false] at hfit
    exact faults_of_body (exec_crvdef_tail htwist hlegal hnone hf) (by rw [crvdefTail, hfit]; rfl)
  · refine faults_of_body (exec_crvdef_tail htwist hlegal hnone hf) ?_
    rw [crvdefTail, operandsFit_pair.mpr hfit]
    by_cases hpair : s.tagged f rs1.toNat (2 * f.k) = true
    · have hraw : s.tag rs2 ≠ .raw := htag.resolve_left (not_not.mpr (operandsTagged_cons.mpr ⟨hpair, by simp⟩))
      rw [State.needPair_ok hpair, State.needRaw_of_ne hraw]
      rfl
    · rw [State.needPair_error hpair]
      rfl
  all_goals
    obtain ⟨hpair, -⟩ := operandsTagged_cons.mp htag
    have hneed : s.needRaw rs2 = .ok (s.val rs2) := State.needRaw_eq_ok.mpr ⟨hraw, rfl⟩
  · refine faults_of_body (exec_crvdef_tail htwist hlegal hnone hf) ?_
    rw [crvdefTail, operandsFit_pair.mpr hfit, State.needPair_ok hpair, hneed, hr]
    rfl
  · have hbody : crvdefTail s ix rs1 rs2 twist fd f =
        .ok (s.setCrv ix (newCrv fd twist (s.pairAt f rs1.toNat) (s.val rs2))) := by
      rw [crvdefTail, operandsFit_pair.mpr hfit, State.needPair_ok hpair, hneed]
      simp only [Attempt.ok_bind, decide_eq_false hr]
      rfl
    refine ⟨_, newCrv fd twist (s.pairAt f rs1.toNat) (s.val rs2),
      exec_of_body (exec_crvdef_tail htwist hlegal hnone hf) hbody, rfl, (State.crvAt_setCrv ..).trans (if_pos rfl),
      fun n hn => (State.crvAt_setCrv ..).trans (if_neg hn), rfl, rfl, rfl, rfl, ?_, ?_, ?_,
      two_pow_pred_bitLength_le (bitLength_pos hr).ne', lt_two_pow_bitLength _⟩
    all_goals rintro rfl; rfl

end

/-! ### PRGDEF (R321) -/

section
variable {g1 g2 : CrvIx} {neg : Bool} {rs1 rs2 : RegIx} {lvl : TwrIx} {c1 c2 : CurveView} {gt : FieldView}

/-- The part of PRGDEF after its curves and its tower are known to be valid. -/
def prgdefTail (s : State) (g1 g2 : CrvIx) (neg : Bool) (rs1 rs2 : RegIx) (lvl : TwrIx) (c1 c2 : CurveView)
    (gt : FieldView) : Attempt State := do
  raiseIf (!pairingStructure s c1 c2 gt lvl) .invalidParameter
  raiseIf (runsPast rs2.toNat gt.k) .illegalCommand
  let loop ← s.needRaw rs1
  let omega ← s.needElem gt rs2.toNat
  raiseIf (decide (loop = 0)) .invalidParameter
  raiseIf (decide ((gt.ctx.m ^ gt.k - 1) % c1.crv.r ≠ 0)) .invalidParameter
  raiseIf (!twistEqualities gt.fld c2.crv.twist c1.crv.a c1.crv.b c2.crv.a c2.crv.b omega) .invalidParameter
  .ok (s.setPrg (newPrg g1 g2 neg lvl loop omega ((gt.ctx.m ^ gt.k - 1) / c1.crv.r)))

theorem exec_prgdef_tail (hnone : s.prg = none) (hc1 : s.curveOf g1 = some c1) (hc2 : s.curveOf g2 = some c2)
    (hgt : s.fieldOf (.tower lvl) = some gt) :
    exec (.prgdef g1 g2 neg rs1 rs2 lvl) s =
      conclude (.prgdef g1 g2 neg rs1 rs2 lvl) s (prgdefTail s g1 g2 neg rs1 rs2 lvl c1 c2 gt) := by
  have hn1 : s.needCurve g1 = .ok c1 := State.needCurve_eq_ok.mpr hc1
  have hn2 : s.needCurve g2 = .ok c2 := State.needCurve_eq_ok.mpr hc2
  have hn3 : s.needTower lvl = .ok gt := State.needTower_eq_ok.mpr hgt
  change conclude _ s (raiseIf s.prg.isSome .invalidParameter >>= fun _ => s.needCurve g1 >>= fun c1 =>
    s.needCurve g2 >>= fun c2 => s.needTower lvl >>= fun gt => prgdefTail s g1 g2 neg rs1 rs2 lvl c1 c2 gt) = _
  rw [hnone, hn1, hn2, hn3]
  rfl

/-- The two equalities of a twist, with the powers of omega as products (R322). -/
theorem twistEqualities_iff {g : Fld} (hg : g.wf = true) {ty : Twist} {a b a' b' w : Elem} (hw : g.elemOk w = true) :
    twistEqualities g ty a b a' b' w = true ↔
      (ty = .typeD ∧ g.mul (g.embed a') (g.prodOf 4 w) = g.embed a ∧ g.mul (g.embed b') (g.prodOf 6 w) = g.embed b) ∨
      (ty = .typeM ∧ g.embed a' = g.mul (g.embed a) (g.prodOf 4 w) ∧
        g.embed b' = g.mul (g.embed b) (g.prodOf 6 w)) := by
  obtain ⟨R, _, ⟨m⟩⟩ := Fld.exists_model hg
  obtain ⟨x, rfl⟩ := m.exists_of_ok hw
  have h4 : g.sqr (g.sqr (m.val x)) = g.prodOf 4 (m.val x) := by rw [m.sqr, m.sqr, m.prodOf]; ring_nf
  have h6 : g.mul (g.prodOf 4 (m.val x)) (g.sqr (m.val x)) = g.prodOf 6 (m.val x) := by
    rw [m.sqr, m.prodOf, m.mul, m.prodOf]; ring_nf
  cases ty with
  | noTwist | typeD | typeM => simp [twistEqualities, h4, h6]

theorem pairingStructure_iff {s : State} :
    pairingStructure s c1 c2 gt lvl = true ↔ c1.crv.fd = .prime gt.root ∧ c1.crv.twist = .noTwist ∧
      c2.crv.twist ≠ .noTwist ∧ c2.crv.fd ∈ s.tiersBelow 9 (.tower lvl) ∧ c1.crv.r = c2.crv.r := by
  simp only [pairingStructure, Bool.and_eq_true, decide_eq_true_eq, and_assoc]

/-- PRGDEF over a curve or a tower that is not valid. -/
theorem needCurves_error {k : CurveView → CurveView → FieldView → Attempt State}
    (h : s.curveOf g1 = none ∨ s.curveOf g2 = none ∨ s.fieldOf (.tower lvl) = none) :
    (s.needCurve g1 >>= fun c1 => s.needCurve g2 >>= fun c2 => s.needTower lvl >>= fun gt => k c1 c2 gt) =
      .error (.kind .invalidParameter) := by
  rw [State.needCurve, State.needCurve, State.needTower, State.needField]
  cases h1 : s.curveOf g1 with
  | none => rfl
  | some c1 =>
    cases h2 : s.curveOf g2 with
    | none => rfl
    | some c2 =>
      have h3 := (h.resolve_left (by simp [h1])).resolve_left (by simp [h2])
      rw [h3]
      rfl

/-- Settles O52. -/
theorem definePairing : Obligations.DefinePairing := by
  intro s h g1 g2 neg rs1 rs2 lvl
  refine ⟨fun hbad => faults_of_body rfl ?_, fun c1 c2 gt hnone hc1 hc2 hgt => ?_⟩
  · by_cases hprg : s.prg = none
    · rw [hprg]
      exact needCurves_error (hbad.resolve_left (not_not.mpr hprg))
    · rw [Option.isSome_iff_ne_none.mpr hprg]
      rfl
  intro shape g w w4 w6 twist fits tags values
  have hshape : pairingStructure s c1 c2 gt lvl = true ↔ shape := pairingStructure_iff
  have hfits : runsPast rs2.toNat gt.k = false ↔ fits := past1_iff gt rs2
  have hexec := exec_prgdef_tail (neg := neg) (rs1 := rs1) (rs2 := rs2) hnone hc1 hc2 hgt
  refine ⟨fun hbad => faults_of_body hexec ?_, fun hs hfit => faults_of_body hexec ?_,
    fun hs hfit htag => faults_of_body hexec ?_, fun hs hfit htag hbad => faults_of_body hexec ?_,
    fun hs hfit htag hok => ?_⟩
  · rw [← hshape, Bool.not_eq_true] at hbad
    rw [prgdefTail, hbad]
    rfl
  · rw [← hshape] at hs
    rw [← hfits, Bool.not_eq_false] at hfit
    rw [prgdefTail, hs, hfit]
    rfl
  · rw [prgdefTail, hshape.mpr hs, hfits.mpr hfit]
    by_cases hraw : s.tag rs1 = .raw
    · have helem : ¬ s.tagged gt rs2.toNat (1 * gt.k) = true := fun hone =>
        htag ⟨hraw, operandsTagged_cons.mpr ⟨hone, operandsTagged_nil.mpr trivial⟩⟩
      rw [State.needRaw_eq_ok.mpr ⟨hraw, rfl⟩, State.needElem_error helem]
      rfl
    · rw [State.needRaw_of_ne hraw]
      rfl
  all_goals
    obtain ⟨hraw, htag⟩ := htag
    obtain ⟨htag, -⟩ := operandsTagged_cons.mp htag
    have hw : g.elemOk w = true := by
      obtain ⟨hfit1, -⟩ := operandsFit_cons.mp hfit
      rw [Nat.one_mul] at hfit1 htag
      exact h.elemAt_ok hgt hfit1 (State.tagged_iff.mp htag)
    have htwist : twistEqualities g c2.crv.twist c1.crv.a c1.crv.b c2.crv.a c2.crv.b w = true ↔ twist :=
      twistEqualities_iff (h.field_sound hgt).wf hw
    have hbody : prgdefTail s g1 g2 neg rs1 rs2 lvl c1 c2 gt =
        raiseIf (decide (s.val rs1 = 0)) .invalidParameter >>= fun _ =>
          raiseIf (decide ((gt.ctx.m ^ gt.k - 1) % c1.crv.r ≠ 0)) .invalidParameter >>= fun _ =>
          raiseIf (!twistEqualities g c2.crv.twist c1.crv.a c1.crv.b c2.crv.a c2.crv.b w) .invalidParameter >>= fun _ =>
          .ok (s.setPrg (newPrg g1 g2 neg lvl (s.val rs1) w ((gt.ctx.m ^ gt.k - 1) / c1.crv.r))) := by
      rw [prgdefTail, hshape.mpr hs, hfits.mpr hfit, State.needRaw_eq_ok.mpr ⟨hraw, rfl⟩,
        State.needElem_ok htag]
      rfl
  · rw [hbody]
    by_cases hloop : s.val rs1 = 0
    · rw [hloop]; rfl
    by_cases hdvd : (gt.ctx.m ^ gt.k - 1) % c1.crv.r = 0
    · have hno : ¬ twist := fun ht => hbad ⟨hloop, Nat.dvd_of_mod_eq_zero hdvd, ht⟩
      rw [← htwist, Bool.not_eq_true] at hno
      simp [hloop, hdvd, hno]
    · simp [hloop, hdvd]
  · obtain ⟨hloop, hdvd, ht⟩ := hok
    have hdone := hbody.trans (b := _) (c := .ok (s.setPrg (newPrg g1 g2 neg lvl (s.val rs1) w
        ((gt.ctx.m ^ gt.k - 1) / c1.crv.r)))) <| by
      simp [hloop, Nat.mod_eq_zero_of_dvd hdvd, htwist.mpr ht]
    exact ⟨_, newPrg g1 g2 neg lvl (s.val rs1) w ((gt.ctx.m ^ gt.k - 1) / c1.crv.r), exec_of_body hexec hdone, rfl, rfl,
      rfl, rfl, rfl, rfl, rfl, rfl, Nat.div_mul_cancel hdvd⟩

end

end Sys2Proof.Machine
end

section
/-! Jacobian points over a tier through the tier's ring: the doubling and the addition formula, the curve equation and its
preservation (45_curve.md R271 to R275, R281, R284). -/

namespace Sys2Proof.Machine

/-! ### Jacobian points over a ring -/

/-- A Jacobian triple over a ring (R272). -/
@[ext] structure Jac (R : Type) where
  x : R
  y : R
  z : R

namespace Jac

variable {R : Type} [CommRing R] [DecidableEq R]

/-- The canonical point at infinity (R273). -/
def inf : Jac R := ⟨0, 1, 0⟩

/-- Canonical form (R273). -/
def canonical (p : Jac R) : Jac R := if p.z = 0 then inf else p

/-- The slope term of the doubling formula (R274). -/
def slope (a : R) (p : Jac R) : R := 3 * p.x ^ 2 + a * p.z ^ 4

/-- The doubling formula where it applies (R274). -/
def tangent (a : R) (p : Jac R) : Jac R :=
  let s := 4 * (p.x * p.y ^ 2)
  let m := p.slope a
  let x3 := m ^ 2 - 2 * s
  ⟨x3, m * (s - x3) - 8 * p.y ^ 4, 2 * (p.y * p.z)⟩

/-- 2P (R274). -/
def double (a : R) (p : Jac R) : Jac R := if p.z = 0 ∨ p.y = 0 then inf else (p.tangent a).canonical

/-- The two sides of the comparison of x coordinates (R275, R285). -/
def crossX (p q : Jac R) : R := p.x * q.z ^ 2

/-- The two sides of the comparison of y coordinates (R275, R285). -/
def crossY (p q : Jac R) : R := p.y * q.z ^ 3

/-- The addition formula where it applies (R275). -/
def chord (p q : Jac R) : Jac R :=
  let h := q.crossX p - p.crossX q
  let r := q.crossY p - p.crossY q
  let v := p.crossX q * h ^ 2
  let x3 := r ^ 2 - h ^ 3 - 2 * v
  ⟨x3, r * (v - x3) - p.crossY q * h ^ 3, p.z * q.z * h⟩

/-- P + Q (R275). -/
def add (a : R) (p q : Jac R) : Jac R :=
  if p.z = 0 then q.canonical
  else if q.z = 0 then p
  else if p.crossX q = q.crossX p then
    if p.crossY q = q.crossY p then p.double a else inf
  else (p.chord q).canonical

/-- -P (R281). -/
def neg (p : Jac R) : Jac R := canonical ⟨p.x, -p.y, p.z⟩

/-- The curve equation in Jacobian form (R284). -/
def Equation (a b : R) (p : Jac R) : Prop := p.y ^ 2 = p.x ^ 3 + a * p.x * p.z ^ 4 + b * p.z ^ 6

/-- The point at infinity is on every curve (R284). -/
def OnCurve (a b : R) (p : Jac R) : Prop := p.z = 0 ∨ p.Equation a b

end Jac

/-! ### The model's points -/

section
variable {R : Type} [CommRing R] {f : Fld} (m : f.Model R)

/-- The triple of elements that a triple over the ring names. -/
def Fld.Model.pt (p : Jac R) : JPoint := { x := m.val p.x, y := m.val p.y, z := m.val p.z }

theorem Fld.Model.pt_ok (p : Jac R) : f.pointOk (m.pt p) := ⟨m.ok _, m.ok _, m.ok _⟩

theorem Fld.Model.exists_of_pointOk {p : JPoint} (h : f.pointOk p) : ∃ q, m.pt q = p := by
  obtain ⟨hx, hy, hz⟩ := h
  obtain ⟨x, hx⟩ := m.exists_of_ok hx
  obtain ⟨y, hy⟩ := m.exists_of_ok hy
  obtain ⟨z, hz⟩ := m.exists_of_ok hz
  exact ⟨⟨x, y, z⟩, by rw [Fld.Model.pt, hx, hy, hz]⟩

@[simp] theorem Fld.Model.pt_x (p : Jac R) : (m.pt p).x = m.val p.x := rfl
@[simp] theorem Fld.Model.pt_y (p : Jac R) : (m.pt p).y = m.val p.y := rfl
@[simp] theorem Fld.Model.pt_z (p : Jac R) : (m.pt p).z = m.val p.z := rfl

theorem Fld.Model.pt_inf : infinity f = m.pt .inf := by rw [infinity, m.zero, m.one]; rfl

theorem Fld.Model.affinePoint (x y : R) : affinePoint f (m.val x) (m.val y) = m.pt ⟨x, y, 1⟩ := by
  rw [Machine.affinePoint, m.one]
  rfl

variable [DecidableEq R]

theorem Fld.Model.isInf (p : Jac R) : (m.pt p).isInf = decide (p.z = 0) := m.isZero_eq p.z

theorem Fld.Model.canonical (p : Jac R) : (m.pt p).canonical f = m.pt p.canonical := by
  rw [JPoint.canonical, m.isInf, Jac.canonical, m.pt_inf]
  split <;> simp_all

theorem Fld.Model.double (a : R) (p : Jac R) : double f (m.val a) (m.pt p) = m.pt (p.double a) := by
  rw [Machine.double, m.isInf, m.pt_y, m.isZero_eq, Jac.double, m.pt_inf]
  by_cases h : p.z = 0 ∨ p.y = 0
  · rw [if_pos (by simpa using h), if_pos h]
  · rw [if_neg (by simpa using h), if_neg h, ← m.canonical]
    simp only [Fld.Model.pt, m.sqr, m.mul, m.times, m.add, m.sub, Jac.tangent, Jac.slope, ← pow_mul, Nat.cast_ofNat,
      Nat.reduceMul]

theorem Fld.Model.addPoints (a : R) (p q : Jac R) : addPoints f (m.val a) (m.pt p) (m.pt q) = m.pt (p.add a q) := by
  rw [Machine.addPoints, m.isInf, m.isInf, Jac.add]
  have hsq (z : R) : z ^ 2 * z = z ^ 3 := (pow_succ z 2).symm
  by_cases hp : p.z = 0
  · rw [if_pos (decide_eq_true hp), if_pos hp, m.canonical]
  by_cases hq : q.z = 0
  · rw [if_neg (by simpa using hp), if_pos (decide_eq_true hq), if_neg hp, if_pos hq]
  rw [if_neg (by simpa using hp), if_neg (by simpa using hq), if_neg hp, if_neg hq]
  simp only [m.pt_x, m.pt_y, m.pt_z, m.sqr, m.mul, m.sub, m.times, m.val_inj, hsq, m.double, m.pt_inf]
  change (if p.crossX q = q.crossX p then if p.crossY q = q.crossY p then _ else _ else _) = _
  by_cases hx : p.crossX q = q.crossX p
  · by_cases hy : p.crossY q = q.crossY p
    · rw [if_pos hx, if_pos hx, if_pos hy, if_pos hy]
    · rw [if_pos hx, if_pos hx, if_neg hy, if_neg hy]
  · rw [if_neg hx, if_neg hx, ← m.canonical]
    simp only [Fld.Model.pt, Jac.chord, Jac.crossX, Jac.crossY, Nat.cast_ofNat]

theorem Fld.Model.negPoint (p : Jac R) : negPoint f (m.pt p) = m.pt p.neg := by
  rw [Machine.negPoint, Jac.neg, ← m.canonical, m.pt_y, m.neg]
  rfl

theorem Fld.Model.onCurve (a b : R) (p : Jac R) : onCurve f (m.val a) (m.val b) (m.pt p) = true ↔ p.OnCurve a b := by
  rw [Machine.onCurve, m.isInf, Jac.OnCurve, Jac.Equation]
  by_cases hz : p.z = 0
  · simp [hz]
  · rw [if_neg (by simpa using hz)]
    simp only [m.pt_x, m.pt_y, m.pt_z, m.sqr, m.mul, m.add, beq_iff_eq, m.val_inj, hz, false_or]
    ring_nf

/-- The doubling rule names the double (R274). -/
theorem Fld.Model.doubleRule (a : R) (p : Jac R) (r : JPoint) :
    DoubleRule f (m.val a) (m.pt p) r ↔ r = m.pt (p.double a) := by
  have hrule : DoubleRule f (m.val a) (m.pt p) r ↔
      if p.z = 0 ∨ p.y = 0 ∨ (p.tangent a).z = 0 then r = m.pt .inf else r = m.pt (p.tangent a) := by
    simp only [DoubleRule, m.pt_x, m.pt_y, m.pt_z, m.prodOf, m.mul, m.sumOf, m.add, m.sub, m.zero, m.one, m.val_inj]
    rfl
  rw [hrule, Jac.double, Jac.canonical]
  split_ifs <;> simp_all

/-- The addition rule names the sum (R275). -/
theorem Fld.Model.addRule (a : R) (p q : Jac R) (r : JPoint) :
    AddRule f (m.val a) (m.pt p) (m.pt q) r ↔ r = m.pt (p.add a q) := by
  have hrule : AddRule f (m.val a) (m.pt p) (m.pt q) r ↔
      if p.z = 0 then r = if q.z = 0 then m.pt .inf else m.pt q
      else if q.z = 0 then r = m.pt p
      else if p.crossX q = q.crossX p then
        (p.crossY q = q.crossY p → DoubleRule f (m.val a) (m.pt p) r) ∧ (p.crossY q ≠ q.crossY p → r = m.pt .inf)
      else r = if (p.chord q).z = 0 then m.pt .inf else m.pt (p.chord q) := by
    simp only [AddRule, m.pt_x, m.pt_y, m.pt_z, m.prodOf, m.mul, m.sumOf, m.sub, m.zero, m.one, m.val_inj, ne_eq,
      Nat.cast_ofNat]
    rfl
  rw [hrule, Jac.add, m.doubleRule, Jac.canonical, Jac.canonical]
  split_ifs <;> simp_all

end

/-! ### The curve equation is kept (R271) -/

section
variable {R : Type} [CommRing R] {a b : R} {p q : Jac R}

theorem Jac.onCurve_inf : (Jac.inf : Jac R).OnCurve a b := .inl rfl

theorem Jac.Equation.tangent (h : p.Equation a b) : (p.tangent a).Equation a b := by
  simp only [Jac.Equation, Jac.tangent, Jac.slope] at h ⊢
  linear_combination 64 * p.y ^ 6 * h

/-- The equation brought to a common Z. -/
theorem Jac.Equation.cross (h : p.Equation a b) (q : Jac R) :
    p.crossY q ^ 2 = p.crossX q ^ 3 + a * p.crossX q * (p.z * q.z) ^ 4 + b * (p.z * q.z) ^ 6 := by
  simp only [Jac.Equation, Jac.crossX, Jac.crossY] at h ⊢
  linear_combination q.z ^ 6 * h

/-- The equations of both points at the common Z, weighted so that `a` and `b` cancel. -/
theorem Jac.Equation.chord (hp : p.Equation a b) (hq : q.Equation a b) : (p.chord q).Equation a b := by
  have hp' := hp.cross q
  have hq' := hq.cross p
  rw [mul_comm q.z] at hq'
  simp only [Jac.Equation, Jac.chord]
  generalize p.crossX q = u1 at hp' ⊢
  generalize p.crossY q = s1 at hp' ⊢
  generalize q.crossX p = u2 at hq' ⊢
  generalize q.crossY p = s2 at hq' ⊢
  generalize p.z * q.z = z at hp' hq' ⊢
  linear_combination
    ((u2 - u1) ^ 6 - ((s2 - s1) ^ 2 - (u2 - u1) ^ 3 - 3 * (u1 * (u2 - u1) ^ 2)) * (u2 - u1) ^ 3) * hp' +
      ((s2 - s1) ^ 2 - (u2 - u1) ^ 3 - 3 * (u1 * (u2 - u1) ^ 2)) * (u2 - u1) ^ 3 * hq'

variable [DecidableEq R]

theorem Jac.OnCurve.canonical (h : p.OnCurve a b) : p.canonical.OnCurve a b := by
  rw [Jac.canonical]
  split
  · exact Jac.onCurve_inf
  · exact h

theorem Jac.OnCurve.double (h : p.OnCurve a b) : (p.double a).OnCurve a b := by
  rw [Jac.double]
  split
  · exact Jac.onCurve_inf
  next hne =>
    rw [not_or] at hne
    exact Jac.OnCurve.canonical (.inr (h.resolve_left hne.1).tangent)

theorem Jac.OnCurve.add (hp : p.OnCurve a b) (hq : q.OnCurve a b) : (p.add a q).OnCurve a b := by
  rw [Jac.add]
  split_ifs with hpz hqz
  · exact hq.canonical
  · exact hp
  · exact hp.double
  · exact Jac.onCurve_inf
  · exact Jac.OnCurve.canonical (.inr ((hp.resolve_left hpz).chord (hq.resolve_left hqz)))

theorem Jac.OnCurve.neg (h : p.OnCurve a b) : p.neg.OnCurve a b := by
  refine Jac.OnCurve.canonical (h.imp_right fun heq => ?_)
  simp only [Jac.Equation] at heq ⊢
  linear_combination heq

end

/-- Settles O48, in the ring of the tier. -/
theorem groupLawKeepsTheCurve : Obligations.GroupLawKeepsTheCurve := by
  classical
  intro f a b p q hf ha hb hp hq hpc hqc
  obtain ⟨R, _, ⟨m⟩⟩ := Fld.exists_model hf
  obtain ⟨a, rfl⟩ := m.exists_of_ok ha
  obtain ⟨b, rfl⟩ := m.exists_of_ok hb
  obtain ⟨p, rfl⟩ := m.exists_of_pointOk hp
  obtain ⟨q, rfl⟩ := m.exists_of_pointOk hq
  rw [m.onCurve] at hpc hqc
  rw [m.double, m.addPoints, m.negPoint, m.onCurve, m.onCurve, m.onCurve]
  exact ⟨hpc.double, hpc.add hqc, hpc.neg⟩

end Sys2Proof.Machine
end

section
/-! The commands on points of a curve: PINF, PLIFT, PNEG and PAFF, the group law, and the predicates (45_curve.md
section 2). -/

namespace Sys2Proof.Machine

variable {s t : State} {v : CurveView}

/-! ### Register ranges -/

theorem pastOf_iff (f : FieldView) (r : RegIx) (n : Nat) :
    runsPast r.toNat (n * f.k) = false ↔ OperandsFit f [(r, n)] := by
  rw [operandsFit_cons, operandsFit_nil]
  simp [runsPast]

theorem operandsFit_append {f : FieldView} {l l' : List (RegIx × Nat)} :
    OperandsFit f (l ++ l') ↔ OperandsFit f l ∧ OperandsFit f l' := List.forall_mem_append

theorem past_pair_iff (f : FieldView) (r q : RegIx) (n k : Nat) :
    (runsPast r.toNat (n * f.k) || runsPast q.toNat (k * f.k)) = false ↔ OperandsFit f [(r, n), (q, k)] := by
  rw [Bool.or_eq_false_iff, pastOf_iff, pastOf_iff, ← operandsFit_append]
  rfl

theorem past_triple_iff (f : FieldView) (r q u : RegIx) (n k l : Nat) :
    (runsPast r.toNat (n * f.k) || runsPast q.toNat (k * f.k) || runsPast u.toNat (l * f.k)) = false ↔
      OperandsFit f [(r, n), (q, k), (u, l)] := by
  rw [Bool.or_eq_false_iff, past_pair_iff, pastOf_iff, ← operandsFit_append]
  rfl

/-! ### Sources -/

section
variable {f : FieldView} {i : Instr} {regs : List (RegIx × Nat)} {past : CurveView → Bool} {rs1 rs2 : RegIx} {ix : CrvIx}

theorem tagged_one_iff {f : FieldView} {n : Nat} {r : RegIx} : OperandsTagged s f [(r, n)] ↔ s.tagged f r.toNat (n * f.k) = true := by
  rw [operandsTagged_cons, operandsTagged_nil, and_true]

/-- The checks of a command over a curve whose one source is a point, and what it comes to. -/
theorem pointSource_command {k : CurveView → JPoint → Attempt State}
    (hi : exec i s = conclude i s (s.needCurve ix >>= fun v => raiseIf (past v) .illegalCommand >>= fun _ =>
      s.needPoint v.fv rs1.toNat >>= k v))
    (hpast : ∀ v, past v = false ↔ OperandsFit v.fv regs) :
    FieldChecks s i ((s.curveOf ix).map (·.fv)) regs [(rs1, 3)] ∧
    ∀ v, s.curveOf ix = some v → OperandsFit v.fv regs → OperandsTagged s v.fv [(rs1, 3)] →
      exec i s = conclude i s (k v (s.pointAt v.fv rs1.toNat)) := by
  refine ⟨fieldChecks_of_body hi hpast fun v hv => ?_, fun v hv hfit htag => ?_⟩
  · rw [State.needPoint_error (mt tagged_one_iff.mpr hv)]
    rfl
  · rw [exec_of_checks hi hv ((hpast v).mpr hfit), State.needPoint_ok (tagged_one_iff.mp htag)]
    rfl

/-- The same where the one source is an affine pair. -/
theorem pairSource_command {k : CurveView → Elem × Elem → Attempt State}
    (hi : exec i s = conclude i s (s.needCurve ix >>= fun v => raiseIf (past v) .illegalCommand >>= fun _ =>
      s.needPair v.fv rs1.toNat >>= k v))
    (hpast : ∀ v, past v = false ↔ OperandsFit v.fv regs) :
    FieldChecks s i ((s.curveOf ix).map (·.fv)) regs [(rs1, 2)] ∧
    ∀ v, s.curveOf ix = some v → OperandsFit v.fv regs → OperandsTagged s v.fv [(rs1, 2)] →
      exec i s = conclude i s (k v (s.pairAt v.fv rs1.toNat)) := by
  refine ⟨fieldChecks_of_body hi hpast fun v hv => ?_, fun v hv hfit htag => ?_⟩
  · rw [State.needPair_error (mt tagged_one_iff.mpr hv)]
    rfl
  · rw [exec_of_checks hi hv ((hpast v).mpr hfit), State.needPair_ok (tagged_one_iff.mp htag)]
    rfl

/-- The same where the sources are a point and what `need` reads from the registers of `rs2`. -/
theorem pointThen_command {α : Type} {n : Nat} {need : FieldView → Attempt α} {value : FieldView → α}
    (hok : ∀ f, s.tagged f rs2.toNat (n * f.k) = true → need f = .ok (value f))
    (herr : ∀ f, ¬ s.tagged f rs2.toNat (n * f.k) = true → need f = .error (.kind .incompatibleContext))
    {k : CurveView → JPoint → α → Attempt State}
    (hi : exec i s = conclude i s (s.needCurve ix >>= fun v => raiseIf (past v) .illegalCommand >>= fun _ =>
      s.needPoint v.fv rs1.toNat >>= fun p => need v.fv >>= k v p))
    (hpast : ∀ v, past v = false ↔ OperandsFit v.fv regs) :
    FieldChecks s i ((s.curveOf ix).map (·.fv)) regs [(rs1, 3), (rs2, n)] ∧
    ∀ v, s.curveOf ix = some v → OperandsFit v.fv regs → OperandsTagged s v.fv [(rs1, 3), (rs2, n)] →
      exec i s = conclude i s (k v (s.pointAt v.fv rs1.toNat) (value v.fv)) := by
  refine ⟨fieldChecks_of_body hi hpast fun v hv => ?_, fun v hv hfit htag => ?_⟩
  · rw [operandsTagged_cons, tagged_one_iff, not_and] at hv
    by_cases h1 : s.tagged v.fv rs1.toNat (3 * v.fv.k) = true
    · rw [State.needPoint_ok h1, herr v.fv (hv h1)]
      rfl
    · rw [State.needPoint_error h1]
      rfl
  · rw [operandsTagged_cons, tagged_one_iff] at htag
    rw [exec_of_checks hi hv ((hpast v).mpr hfit), State.needPoint_ok htag.1, hok v.fv htag.2]
    rfl

end

/-! ### Sound operands -/

section
variable (h : s.Inv) {x : Tier} {f : FieldView} (hf : s.fieldOf x = some f)
include h hf

theorem State.Inv.pointAt_ok {n : Nat} (hn : n + 3 * f.k ≤ 64) (ht : s.tagged f n (3 * f.k) = true) :
    f.fld.pointOk (s.pointAt f n) := by
  have hx := h.elemAt_ok_block (i := 0) hf hn ht (by decide)
  have hy := h.elemAt_ok_block (i := 1) hf hn ht (by decide)
  rw [Nat.zero_mul, Nat.add_zero] at hx
  rw [Nat.one_mul] at hy
  exact ⟨hx, hy, h.elemAt_ok_block (i := 2) hf hn ht (by decide)⟩

theorem State.Inv.pairAt_ok {n : Nat} (hn : n + 2 * f.k ≤ 64) (ht : s.tagged f n (2 * f.k) = true) :
    f.fld.elemOk (s.pairAt f n).1 = true ∧ f.fld.elemOk (s.pairAt f n).2 = true := by
  have hx := h.elemAt_ok_block (i := 0) hf hn ht (by decide)
  have hy := h.elemAt_ok_block (i := 1) hf hn ht (by decide)
  rw [Nat.zero_mul, Nat.add_zero] at hx
  rw [Nat.one_mul] at hy
  exact ⟨hx, hy⟩

end

/-- The coefficients of a valid curve are elements of its field (R270). -/
theorem State.Inv.curve_ok (h : s.Inv) {ix : CrvIx} (hv : s.curveOf ix = some v) :
    s.fieldOf v.crv.fd = some v.fv ∧ v.fv.fld.elemOk v.crv.a = true ∧ v.fv.fld.elemOk v.crv.b = true := by
  obtain ⟨he, hf⟩ := State.curveOf_field hv
  have hsound := h.crv ix
  simp only [State.curveEntrySound, he, State.curveSound, hf, Bool.and_eq_true] at hsound
  obtain ⟨⟨⟨⟨ha, hb⟩, -⟩, -⟩, -⟩ := hsound
  exact ⟨hf, ha, hb⟩

/-! ### Results are points of the field -/

section
variable {g : Fld} (hg : g.wf = true) {a b : Elem} {p q : JPoint}
include hg

theorem infinity_ok : g.pointOk (infinity g) := ⟨Fld.zero_ok hg, Fld.one_ok hg, Fld.zero_ok hg⟩

theorem double_ok (ha : g.elemOk a = true) (hp : g.pointOk p) : g.pointOk (double g a p) := by
  classical
  obtain ⟨R, _, ⟨m⟩⟩ := Fld.exists_model hg
  obtain ⟨a, rfl⟩ := m.exists_of_ok ha
  obtain ⟨p, rfl⟩ := m.exists_of_pointOk hp
  exact m.double a p ▸ m.pt_ok _

theorem addPoints_ok (ha : g.elemOk a = true) (hp : g.pointOk p) (hq : g.pointOk q) : g.pointOk (addPoints g a p q) := by
  classical
  obtain ⟨R, _, ⟨m⟩⟩ := Fld.exists_model hg
  obtain ⟨a, rfl⟩ := m.exists_of_ok ha
  obtain ⟨p, rfl⟩ := m.exists_of_pointOk hp
  obtain ⟨q, rfl⟩ := m.exists_of_pointOk hq
  exact m.addPoints a p q ▸ m.pt_ok _

theorem negPoint_ok (hp : g.pointOk p) : g.pointOk (negPoint g p) := by
  classical
  obtain ⟨R, _, ⟨m⟩⟩ := Fld.exists_model hg
  obtain ⟨p, rfl⟩ := m.exists_of_pointOk hp
  exact m.negPoint p ▸ m.pt_ok _

theorem affinePoint_ok {x y : Elem} (hx : g.elemOk x = true) (hy : g.elemOk y = true) : g.pointOk (affinePoint g x y) :=
  ⟨hx, hy, Fld.one_ok hg⟩

theorem doubleRule_double (ha : g.elemOk a = true) (hp : g.pointOk p) : DoubleRule g a p (double g a p) := by
  classical
  obtain ⟨R, _, ⟨m⟩⟩ := Fld.exists_model hg
  obtain ⟨a, rfl⟩ := m.exists_of_ok ha
  obtain ⟨p, rfl⟩ := m.exists_of_pointOk hp
  exact (m.doubleRule a p _).mpr (m.double a p)

theorem addRule_addPoints (ha : g.elemOk a = true) (hp : g.pointOk p) (hq : g.pointOk q) :
    AddRule g a p q (addPoints g a p q) := by
  classical
  obtain ⟨R, _, ⟨m⟩⟩ := Fld.exists_model hg
  obtain ⟨a, rfl⟩ := m.exists_of_ok ha
  obtain ⟨p, rfl⟩ := m.exists_of_pointOk hp
  obtain ⟨q, rfl⟩ := m.exists_of_pointOk hq
  exact (m.addRule a p q _).mpr (m.addPoints a p q)

/-- The curve equation of an affine pair, with powers as products (R277). -/
theorem onCurveAffine_iff {x y : Elem} (ha : g.elemOk a = true) (hb : g.elemOk b = true) (hx : g.elemOk x = true)
    (hy : g.elemOk y = true) : onCurveAffine g a b x y = true ↔
      g.prodOf 2 y = g.add (g.add (g.prodOf 3 x) (g.mul a x)) b := by
  obtain ⟨R, _, ⟨m⟩⟩ := Fld.exists_model hg
  obtain ⟨a, rfl⟩ := m.exists_of_ok ha
  obtain ⟨b, rfl⟩ := m.exists_of_ok hb
  obtain ⟨x, rfl⟩ := m.exists_of_ok hx
  obtain ⟨y, rfl⟩ := m.exists_of_ok hy
  simp only [onCurveAffine, m.sqr, m.mul, m.add, m.prodOf, beq_iff_eq, ← pow_succ]

/-- The curve equation of a point, with powers as products (R284). -/
theorem onCurve_iff (ha : g.elemOk a = true) (hb : g.elemOk b = true) (hp : g.pointOk p) :
    onCurve g a b p = true ↔ p.z = g.zero ∨ g.prodOf 2 p.y =
      g.add (g.add (g.prodOf 3 p.x) (g.mul (g.mul a p.x) (g.prodOf 4 p.z))) (g.mul b (g.prodOf 6 p.z)) := by
  classical
  obtain ⟨R, _, ⟨m⟩⟩ := Fld.exists_model hg
  obtain ⟨a, rfl⟩ := m.exists_of_ok ha
  obtain ⟨b, rfl⟩ := m.exists_of_ok hb
  obtain ⟨p, rfl⟩ := m.exists_of_pointOk hp
  simp only [m.onCurve, m.pt_x, m.pt_y, m.pt_z, m.mul, m.add, m.prodOf, m.zero, m.val_inj, Jac.OnCurve, Jac.Equation]

/-- Equality of points, with powers as products (R285). -/
theorem eqPoints_iff (hp : g.pointOk p) (hq : g.pointOk q) : eqPoints g p q = true ↔
    (p.z = g.zero ∧ q.z = g.zero) ∨
      (p.z ≠ g.zero ∧ q.z ≠ g.zero ∧ g.mul p.x (g.prodOf 2 q.z) = g.mul q.x (g.prodOf 2 p.z) ∧
        g.mul p.y (g.prodOf 3 q.z) = g.mul q.y (g.prodOf 3 p.z)) := by
  classical
  obtain ⟨R, _, ⟨m⟩⟩ := Fld.exists_model hg
  obtain ⟨p, rfl⟩ := m.exists_of_pointOk hp
  obtain ⟨q, rfl⟩ := m.exists_of_pointOk hq
  simp only [eqPoints, m.isInf, m.pt_x, m.pt_y, m.pt_z, m.sqr, m.mul, m.prodOf, m.zero, m.val_inj, ← pow_succ, ne_eq]
  by_cases h1 : p.z = 0 <;> by_cases h2 : q.z = 0 <;> simp [h1, h2]

omit hg in
theorem isInf_iff (hp : g.pointOk p) : p.isInf = decide (p.z = g.zero) := by
  rw [JPoint.isInf, Bool.eq_iff_iff, isZeroElem_iff (Fld.elemOk_iff.mp hp.2.2).1, decide_eq_true_iff]

end

end Sys2Proof.Machine
end

section
/-! The commands on points of a curve: PINF, PLIFT, PNEG and PAFF, the group law, the predicates and the scalar multiples
(45_curve.md sections 2 and 3). -/

namespace Sys2Proof.Machine

variable {s t : State} {v : CurveView}

/-! ### Affine pairs (R283) -/

section
variable {g : Fld} (hg : g.wf = true) {p : JPoint}
include hg

/-- Over the modulus 1 every element is zero. -/
theorem one_lt_char_of_ne_zero {a : Elem} (ha : g.elemOk a = true) (hne : a ≠ g.zero) : 1 < g.char := by
  have hpos := Fld.char_pos_of_wf hg
  obtain ⟨hlen, hall⟩ := Fld.elemOk_iff.mp ha
  by_contra hle
  refine hne ((isZeroElem_iff hlen).mp (List.all_eq_true.mpr fun w hw => ?_))
  have := hall w hw
  simp only [beq_iff_eq]
  omega

/-- The pair made with an inverse of Z (R283). -/
theorem affineBy_spec {zi : Elem} (hp : g.pointOk p) (hzi : g.elemOk zi = true) (hinv : g.mul p.z zi = g.one) :
    g.elemOk (affineBy g p zi).1 = true ∧ g.elemOk (affineBy g p zi).2 = true ∧
      g.mul (affineBy g p zi).1 (g.prodOf 2 p.z) = p.x ∧ g.mul (affineBy g p zi).2 (g.prodOf 3 p.z) = p.y := by
  obtain ⟨R, _, ⟨m⟩⟩ := Fld.exists_model hg
  obtain ⟨p, rfl⟩ := m.exists_of_pointOk hp
  obtain ⟨w, rfl⟩ := m.exists_of_ok hzi
  rw [m.pt_z, m.mul, m.one, m.val_inj] at hinv
  simp only [affineBy, m.pt_x, m.pt_y, m.pt_z, m.sqr, m.mul, m.prodOf, m.ok, m.val_inj, true_and]
  constructor
  · linear_combination (p.x * (p.z * w + 1)) * hinv
  · linear_combination (p.y * ((p.z * w) ^ 2 + p.z * w + 1)) * hinv

theorem toAffine_eq_none (hp : g.pointOk p) (h : p.z = g.zero ∨ ¬ g.HasInverse p.z) : toAffine g p = none := by
  rw [toAffine, isInf_iff hp]
  by_cases hz : p.z = g.zero
  · rw [if_pos (decide_eq_true hz)]
  · rw [if_neg (by simpa using hz),
      inv_of_not_hasInverse hg (one_lt_char_of_ne_zero hg hp.2.2 hz) hp.2.2 (h.resolve_left hz)]
    rfl

theorem toAffine_eq_some (hp : g.pointOk p) (hz : p.z ≠ g.zero) (h : g.HasInverse p.z) : ∃ x y,
    toAffine g p = some (x, y) ∧ g.elemOk x = true ∧ g.elemOk y = true ∧ g.mul x (g.prodOf 2 p.z) = p.x ∧
      g.mul y (g.prodOf 3 p.z) = p.y := by
  obtain ⟨-, w, hw, hok, hone⟩ := inv_of_hasInverse hg (one_lt_char_of_ne_zero hg hp.2.2 hz) hp.2.2 h
  refine ⟨_, _, ?_, affineBy_spec hg hp hok hone⟩
  rw [toAffine, isInf_iff hp, if_neg (by simpa using hz), hw]
  rfl

theorem negPoint_eq (hp : g.pointOk p) :
    negPoint g p = if p.z = g.zero then infinity g else { x := p.x, y := g.sub g.zero p.y, z := p.z } := by
  obtain ⟨R, _, ⟨m⟩⟩ := Fld.exists_model hg
  have hinf : JPoint.isInf { p with y := g.neg p.y } = decide (p.z = g.zero) :=
    isInf_iff (p := { p with y := g.neg p.y }) ⟨hp.1, Fld.neg_ok hg hp.2.1, hp.2.2⟩
  have hneg : g.neg p.y = g.sub g.zero p.y := by
    obtain ⟨y, hy⟩ := m.exists_of_ok hp.2.1
    rw [← hy, m.zero, m.neg, m.sub, zero_sub]
  rw [negPoint, JPoint.canonical, hinf, hneg]
  simp only [decide_eq_true_eq]

end

theorem hasInverse_of_prime_or {f : FieldView} (hf : f.Sound) {a : Elem} (ha : f.fld.elemOk a = true) (hne : a ≠ f.fld.zero)
    (h : f.ctx.m.Prime ∨ f.fld.HasInverse a) : f.fld.HasInverse a :=
  h.elim (fun hp => Fld.hasInverse_of_ne_zero hf.wf (hf.char ▸ hp) hf.verified ha hne) id

/-! ### What a command over a curve reads -/

section
variable (h : s.Inv) {ix : CrvIx} (hv : s.curveOf ix = some v)
include h hv

theorem State.Inv.curve_sound : v.fv.Sound := h.field_sound (h.curve_ok hv).1

theorem State.Inv.curve_wf : v.fv.fld.wf = true := (h.curve_sound hv).wf

/-- A point source in range with its tags. -/
theorem State.Inv.sourcePoint_ok {r : RegIx} {l : List (RegIx × Nat)} (hmem : (r, 3) ∈ l) (hfit : OperandsFit v.fv l)
    (htag : s.tagged v.fv r.toNat (3 * v.fv.k) = true) : v.fv.fld.pointOk (s.pointAt v.fv r.toNat) :=
  h.pointAt_ok (h.curve_ok hv).1 (hfit _ hmem) htag

theorem State.Inv.sourcePair_ok {r : RegIx} {l : List (RegIx × Nat)} (hmem : (r, 2) ∈ l) (hfit : OperandsFit v.fv l)
    (htag : s.tagged v.fv r.toNat (2 * v.fv.k) = true) :
    v.fv.fld.elemOk (s.pairAt v.fv r.toNat).1 = true ∧ v.fv.fld.elemOk (s.pairAt v.fv r.toNat).2 = true :=
  h.pairAt_ok (h.curve_ok hv).1 (hfit _ hmem) htag

/-- A body that writes a point. -/
theorem State.Inv.writesPoint {i : Instr} {rd : RegIx} {p : JPoint} {l : List (RegIx × Nat)}
    (hexec : exec i s = conclude i s (.ok (s.setPoint v.fv rd.toNat p))) (hfit : OperandsFit v.fv ((rd, 3) :: l))
    (hp : v.fv.fld.pointOk p) : ∃ t, exec i s = .next t ∧ PointResult s t v.fv rd.toNat p :=
  ⟨_, exec_of_body hexec rfl, pointResult_setPoint h (h.curve_ok hv).1 (operandsFit_cons.mp hfit).1 hp⟩

end

/-- Settles O44. -/
theorem curvePoints : Obligations.CurvePoints := by
  intro s h rd rs1 ix
  have hpinf : FieldChecks s (.pinf rd ix) ((s.curveOf ix).map (·.fv)) [(rd, 3)] [] :=
    fieldChecks_of_body rfl (fun v => pastOf_iff v.fv rd 3) fun v hv => absurd (operandsTagged_nil.mpr trivial) hv
  obtain ⟨hplift, plift⟩ := pairSource_command (i := .plift rd rs1 ix) (s := s) rfl fun v => past_pair_iff v.fv rd rs1 3 2
  obtain ⟨hpneg, pneg⟩ := pointSource_command (i := .pneg rd rs1 ix) (s := s) rfl fun v => past_pair_iff v.fv rd rs1 3 3
  obtain ⟨hpaff, paff⟩ := pointSource_command (i := .paff rd rs1 ix) (s := s) rfl fun v => past_pair_iff v.fv rd rs1 2 3
  refine ⟨hpinf, hplift, hpneg, hpaff, fun v hv => ?_⟩
  obtain ⟨hf, ha, hb⟩ := h.curve_ok hv
  have hg := h.curve_wf hv
  refine ⟨fun hfit => ?_, fun hfit htag => ?_, fun hfit htag => ?_, fun hfit htag => ?_⟩
  · have hexec := exec_of_checks (i := .pinf rd ix) (s := s) (past := fun v => runsPast rd.toNat (3 * v.fv.k))
      (k := fun v => .ok (s.setPoint v.fv rd.toNat (infinity v.fv.fld))) rfl hv ((pastOf_iff v.fv rd 3).mpr hfit)
    exact h.writesPoint hv hexec hfit (infinity_ok hg)
  · obtain ⟨hx, hy⟩ := h.sourcePair_ok hv (by simp) hfit (tagged_one_iff.mp htag)
    have hcurve := onCurveAffine_iff hg ha hb hx hy
    have hexec := plift v hv hfit htag
    refine ⟨fun hne => faults_of_body hexec ?_, fun heq => ?_⟩
    · rw [Bool.eq_false_iff.mpr (mt hcurve.mp hne)]
      rfl
    · rw [hcurve.mpr heq] at hexec
      exact h.writesPoint hv hexec hfit (affinePoint_ok hg hx hy)
  · have hp := h.sourcePoint_ok hv (by simp) hfit (tagged_one_iff.mp htag)
    have hexec := pneg v hv hfit htag
    have hresult := h.writesPoint hv hexec hfit (negPoint_ok hg hp)
    rwa [negPoint_eq hg hp] at hresult
  · have hp := h.sourcePoint_ok hv (by simp) hfit (tagged_one_iff.mp htag)
    have hexec := paff v hv hfit htag
    refine ⟨fun hbad => faults_of_body hexec ?_, fun hne hor => ?_⟩
    · rw [toAffine_eq_none hg hp hbad]
      rfl
    · obtain ⟨x, y, hxy, hx, hy, hspec⟩ := toAffine_eq_some hg hp hne
        (hasInverse_of_prime_or (h.curve_sound hv) hp.2.2 hne hor)
      rw [hxy] at hexec
      exact ⟨_, x, y, exec_of_body hexec rfl, pairResult_setPair h hf (operandsFit_cons.mp hfit).1 hx hy, hspec⟩

/-- Settles O45. -/
theorem groupLaw : Obligations.GroupLaw := by
  intro s h rd rs1 rs2 ix
  obtain ⟨hpdbl, pdbl⟩ := pointSource_command (i := .pdbl rd rs1 ix) (s := s) rfl fun v => past_pair_iff v.fv rd rs1 3 3
  obtain ⟨hpadd, padd⟩ := pointThen_command (n := 3) (rs2 := rs2) (value := fun f => s.pointAt f rs2.toNat)
    (fun _ => State.needPoint_ok) (fun _ => State.needPoint_error) (i := .padd rd rs1 rs2 ix) rfl
    fun v => past_triple_iff v.fv rd rs1 rs2 3 3 3
  obtain ⟨hpmadd, pmadd⟩ := pointThen_command (n := 2) (rs2 := rs2) (value := fun f => s.pairAt f rs2.toNat)
    (fun _ => State.needPair_ok) (fun _ => State.needPair_error) (i := .pmadd rd rs1 rs2 ix) rfl
    fun v => past_triple_iff v.fv rd rs1 rs2 3 3 2
  refine ⟨hpdbl, hpadd, hpmadd, fun v hv => ?_⟩
  obtain ⟨-, ha, -⟩ := h.curve_ok hv
  have hg := h.curve_wf hv
  refine ⟨fun hfit htag => ?_, fun hfit htag => ?_, fun hfit htag => ?_⟩
  · have hp := h.sourcePoint_ok hv (by simp) hfit (tagged_one_iff.mp htag)
    obtain ⟨t, ht, hresult⟩ := h.writesPoint hv (pdbl v hv hfit htag) hfit (double_ok hg ha hp)
    exact ⟨t, _, ht, hresult, doubleRule_double hg ha hp⟩
  · obtain ⟨htag1, htag2⟩ := operandsTagged_cons.mp htag
    have hp := h.sourcePoint_ok (r := rs1) hv (by simp) hfit htag1
    have hq := h.sourcePoint_ok (r := rs2) hv (by simp) hfit (tagged_one_iff.mp htag2)
    obtain ⟨t, ht, hresult⟩ := h.writesPoint hv (padd v hv hfit htag) hfit (addPoints_ok hg ha hp hq)
    exact ⟨t, _, ht, hresult, addRule_addPoints hg ha hp hq⟩
  · obtain ⟨htag1, htag2⟩ := operandsTagged_cons.mp htag
    have hp := h.sourcePoint_ok (r := rs1) hv (by simp) hfit htag1
    obtain ⟨hx, hy⟩ := h.sourcePair_ok (r := rs2) hv (by simp) hfit (tagged_one_iff.mp htag2)
    have hq := affinePoint_ok hg hx hy
    obtain ⟨t, ht, hresult⟩ := h.writesPoint hv (pmadd v hv hfit htag) hfit (addPoints_ok hg ha hp hq)
    exact ⟨t, _, ht, hresult, addRule_addPoints hg ha hp hq⟩

/-- Settles O46. -/
theorem curvePredicates : Obligations.CurvePredicates := by
  intro s h rs1 rs2 ix
  obtain ⟨hpisinf, pisinf⟩ := pointSource_command (i := .pisinf rs1 ix) (s := s) rfl fun v => pastOf_iff v.fv rs1 3
  obtain ⟨hponc, ponc⟩ := pointSource_command (i := .ponc rs1 ix) (s := s) rfl fun v => pastOf_iff v.fv rs1 3
  obtain ⟨hpeq, peq⟩ := pointThen_command (n := 3) (rs2 := rs2) (value := fun f => s.pointAt f rs2.toNat)
    (fun _ => State.needPoint_ok) (fun _ => State.needPoint_error) (i := .peq rs1 rs2 ix) rfl
    fun v => past_pair_iff v.fv rs1 rs2 3 3
  refine ⟨hpisinf, hponc, hpeq, fun v hv => ?_⟩
  obtain ⟨-, ha, hb⟩ := h.curve_ok hv
  have hg := h.curve_wf hv
  refine ⟨fun hfit htag => ?_, fun hfit htag => ?_⟩
  · have hp := h.sourcePoint_ok hv (by simp) hfit (tagged_one_iff.mp htag)
    refine ⟨⟨_, exec_of_body (pisinf v hv hfit htag) rfl, ?_⟩, ⟨_, exec_of_body (ponc v hv hfit htag) rfl, ?_⟩⟩
    · rw [isInf_iff hp]
      exact onlyTruth_setT _
    · rw [← Bool.decide_congr (onCurve_iff hg ha hb hp), Bool.decide_eq_true]
      exact onlyTruth_setT _
  · obtain ⟨htag1, htag2⟩ := operandsTagged_cons.mp htag
    have hp := h.sourcePoint_ok (r := rs1) hv (by simp) hfit htag1
    have hq := h.sourcePoint_ok (r := rs2) hv (by simp) hfit (tagged_one_iff.mp htag2)
    refine ⟨_, exec_of_body (peq v hv hfit htag) rfl, ?_⟩
    rw [← Bool.decide_congr (eqPoints_iff hg hp hq), Bool.decide_eq_true]
    exact onlyTruth_setT _

end Sys2Proof.Machine
end

section
/-! The scalar multiples PSMUL and PSMUL2 (45_curve.md section 3). -/

namespace Sys2Proof.Machine

variable {s t : State} {v : CurveView}

/-! ### The sweeps stay in the field -/

section
variable {g : Fld} (hg : g.wf = true) {a : Elem} (ha : g.elemOk a = true)
include hg ha

theorem oddFrom_ok {d last : JPoint} (hd : g.pointOk d) (hl : g.pointOk last) (n : Nat) :
    ∀ p ∈ oddFrom g a d last n, g.pointOk p := by
  induction n generalizing last with
  | zero => exact fun p hp => absurd hp List.not_mem_nil
  | succ n ih =>
    have hnext := addPoints_ok hg ha hl hd
    rintro p (_ | ⟨_, hp⟩)
    · exact hnext
    · exact ih hnext p hp

theorem oddTable_ok {p : JPoint} (hp : g.pointOk p) (w : Nat) : ∀ q ∈ oddTable g a p w, g.pointOk q := by
  rintro q (_ | ⟨_, hq⟩)
  · exact hp
  · exact oddFrom_ok hg ha (double_ok hg ha hp) hp _ q hq

theorem addDigit_ok {table : List JPoint} (ht : ∀ q ∈ table, g.pointOk q) {acc : JPoint} (hacc : g.pointOk acc) (d : Int) :
    g.pointOk (addDigit g a table acc d) := by
  have hentry : g.pointOk (table.getD ((d.natAbs - 1) / 2) (infinity g)) := by
    rcases Nat.lt_or_ge ((d.natAbs - 1) / 2) table.length with hlt | hge
    · rw [List.getD_eq_getElem _ _ hlt]
      exact ht _ (List.getElem_mem hlt)
    · rw [List.getD_eq_default _ _ hge]
      exact infinity_ok hg
  simp only [addDigit]
  split_ifs
  · exact hacc
  · exact addPoints_ok hg ha hacc hentry
  · exact addPoints_ok hg ha hacc (negPoint_ok hg hentry)

theorem sweep_ok {table : List JPoint} (ht : ∀ q ∈ table, g.pointOk q) (ds : List Int) {acc : JPoint}
    (hacc : g.pointOk acc) : g.pointOk (sweep g a table ds acc) := by
  induction ds generalizing acc with
  | nil => exact hacc
  | cons d rest ih => exact ih (addDigit_ok hg ha ht (double_ok hg ha hacc) d)

theorem sweep2_ok {t1 t2 : List JPoint} (h1 : ∀ q ∈ t1, g.pointOk q) (h2 : ∀ q ∈ t2, g.pointOk q)
    (ds : List (Int × Int)) {acc : JPoint} (hacc : g.pointOk acc) : g.pointOk (sweep2 g a t1 t2 ds acc) := by
  induction ds generalizing acc with
  | nil => exact hacc
  | cons d rest ih =>
    exact ih (addDigit_ok hg ha h2 (addDigit_ok hg ha h1 (double_ok hg ha hacc) d.1) d.2)

theorem scalarMul_ok {p : JPoint} (hp : g.pointOk p) (k w : Nat) : g.pointOk (scalarMul g a p k w) :=
  sweep_ok hg ha (oddTable_ok hg ha hp w) _ (infinity_ok hg)

theorem scalarMul2_ok {p q : JPoint} (hp : g.pointOk p) (hq : g.pointOk q) (k l w : Nat) :
    g.pointOk (scalarMul2 g a p k q l w) :=
  sweep2_ok hg ha (oddTable_ok hg ha hp w) (oddTable_ok hg ha hq w) _ (infinity_ok hg)

end

/-- The sweep over the digits of zero (R286). -/
theorem scalarMul_zero {g : Fld} (a : Elem) (p : JPoint) (w : Nat) : scalarMul g a p 0 w = infinity g := by
  have hinf : double g a (infinity g) = infinity g := if_pos (by simp [JPoint.isInf, infinity, Fld.zero, isZeroElem])
  have hdigits : wnaf 0 w = [0] := if_pos rfl
  rw [scalarMul, hdigits, List.reverse_singleton, sweep, sweep, hinf, addDigit, if_pos rfl]

/-! ### PSMUL (R286) -/

theorem scalarLong_iff {n k : Nat} : decide (n < bitLength k) = true ↔ 2 ^ n ≤ k := by
  rw [decide_eq_true_iff, ← Nat.not_le, bitLength_le_iff, Nat.not_lt]

theorem scalarLong_eq_false {n k : Nat} : decide (n < bitLength k) = false ↔ k < 2 ^ n := by
  rw [Bool.eq_false_iff, Ne, scalarLong_iff, Nat.not_le]

section
variable {rd rs1 rs2 : RegIx} {ix : CrvIx}

/-- The part of PSMUL after the point has been read. -/
def psmulTail (s : State) (rd rs2 : RegIx) (v : CurveView) (p : JPoint) : Attempt State := do
  let k ← s.needRaw rs2
  raiseIf (decide (v.crv.sbits < bitLength k)) .outOfRange
  .ok (s.setPoint v.fv rd.toNat (scalarMul v.fv.fld v.crv.a p k s.wnafw.toNat))

theorem psmulTail_ok {p : JPoint} (hraw : s.tag rs2 = .raw) (hk : s.val rs2 < 2 ^ v.crv.sbits) :
    psmulTail s rd rs2 v p =
      .ok (s.setPoint v.fv rd.toNat (scalarMul v.fv.fld v.crv.a p (s.val rs2) s.wnafw.toNat)) := by
  rw [psmulTail, State.needRaw_eq_ok.mpr ⟨hraw, rfl⟩]
  simp only [Attempt.ok_bind, scalarLong_eq_false.mpr hk]
  rfl

/-! ### PSMUL2 (R287) -/

theorem State.tagged_add {f : FieldView} {n c k : Nat} :
    s.tagged f n (c + k) = true ↔ s.tagged f n c = true ∧ s.tagged f (n + c) k = true := by
  simp only [State.tagged_iff]
  constructor
  · intro h
    exact ⟨fun j hj => h j (by omega), fun j hj => by rw [Nat.add_assoc]; exact h (c + j) (by omega)⟩
  · rintro ⟨h1, h2⟩ j hj
    rcases Nat.lt_or_ge j c with hlt | hge
    · exact h1 j hlt
    · have := h2 (j - c) (by omega)
      rwa [Nat.add_assoc, Nat.add_sub_cancel' hge] at this

theorem tagged_two_points {f : FieldView} {n : Nat} :
    s.tagged f n (6 * f.k) = true ↔ s.tagged f n (3 * f.k) = true ∧ s.tagged f (n + 3 * f.k) (3 * f.k) = true := by
  rw [show 6 * f.k = 3 * f.k + 3 * f.k by ring, State.tagged_add]

/-- The part of PSMUL2 after the register ranges. -/
def psmul2Tail (s : State) (rd rs1 rs2 : RegIx) (v : CurveView) : Attempt State := do
  let p1 ← s.needPoint v.fv rs1.toNat
  let p2 ← s.needPoint v.fv (rs1.toNat + 3 * v.fv.k)
  let k1 ← s.needRaw rs2
  let k2 ← s.needRawAt (rs2.toNat + 1)
  raiseIf (decide (v.crv.sbits < bitLength k1) || decide (v.crv.sbits < bitLength k2)) .outOfRange
  .ok (s.setPoint v.fv rd.toNat (scalarMul2 v.fv.fld v.crv.a p1 k1 p2 k2 s.wnafw.toNat))

/-- The register ranges of PSMUL2. -/
def psmul2Past (rd rs1 rs2 : RegIx) (v : CurveView) : Bool :=
  runsPast rd.toNat (3 * v.fv.k) || runsPast rs1.toNat (6 * v.fv.k) || runsPast rs2.toNat 2

theorem psmul2Past_iff :
    psmul2Past rd rs1 rs2 v = false ↔ OperandsFit v.fv [(rd, 3), (rs1, 6)] ∧ rs2.toNat + 2 ≤ 64 := by
  rw [psmul2Past, Bool.or_eq_false_iff, past_pair_iff]
  simp [runsPast]

theorem exec_psmul2 : exec (.psmul2 rd rs1 rs2 ix) s = conclude (.psmul2 rd rs1 rs2 ix) s
    (orRaise (s.curveOf ix) .invalidParameter >>= fun v => raiseIf (psmul2Past rd rs1 rs2 v) .illegalCommand >>= fun _ =>
      psmul2Tail s rd rs1 rs2 v) := rfl

theorem psmul2Tail_error (h : ¬ OperandsTagged s v.fv [(rs1, 6)] ∨ s.tag rs2 ≠ .raw ∨ (s.regAt (rs2.toNat + 1)).tag ≠ .raw) :
    psmul2Tail s rd rs1 rs2 v = .error (.kind .incompatibleContext) := by
  rw [tagged_one_iff, tagged_two_points] at h
  rw [psmul2Tail]
  by_cases h1 : s.tagged v.fv rs1.toNat (3 * v.fv.k) = true
  · rw [State.needPoint_ok h1]
    by_cases h2 : s.tagged v.fv (rs1.toNat + 3 * v.fv.k) (3 * v.fv.k) = true
    · rw [State.needPoint_ok h2]
      have hraw := h.resolve_left (not_not.mpr ⟨h1, h2⟩)
      by_cases h3 : s.tag rs2 = .raw
      · rw [State.needRaw_eq_ok.mpr ⟨h3, rfl⟩, State.needRawAt, if_neg (hraw.resolve_left (not_not.mpr h3))]
        rfl
      · rw [State.needRaw_of_ne h3]
        rfl
    · rw [State.needPoint_error h2]
      rfl
  · rw [State.needPoint_error h1]
    rfl

theorem psmul2Tail_eq (htag : OperandsTagged s v.fv [(rs1, 6)]) (hraw1 : s.tag rs2 = .raw)
    (hraw2 : (s.regAt (rs2.toNat + 1)).tag = .raw) :
    psmul2Tail s rd rs1 rs2 v =
      raiseIf (decide (v.crv.sbits < bitLength (s.val rs2)) ||
        decide (v.crv.sbits < bitLength (s.regAt (rs2.toNat + 1)).val)) .outOfRange >>= fun _ =>
      .ok (s.setPoint v.fv rd.toNat (scalarMul2 v.fv.fld v.crv.a (s.pointAt v.fv rs1.toNat) (s.val rs2)
        (s.pointAt v.fv (rs1.toNat + 3 * v.fv.k)) (s.regAt (rs2.toNat + 1)).val s.wnafw.toNat)) := by
  obtain ⟨h1, h2⟩ := tagged_two_points.mp (tagged_one_iff.mp htag)
  rw [psmul2Tail, State.needPoint_ok h1, State.needPoint_ok h2, State.needRaw_eq_ok.mpr ⟨hraw1, rfl⟩,
    State.needRawAt_eq_ok.mpr ⟨hraw2, rfl⟩]
  rfl

/-- Settles O47. -/
theorem scalarMulCommands : Obligations.ScalarMulCommands := by
  intro s h rd rs1 rs2 ix
  obtain ⟨hchecks, psmul⟩ := pointSource_command (i := .psmul rd rs1 rs2 ix) (s := s) (k := psmulTail s rd rs2) rfl
    fun v => past_pair_iff v.fv rd rs1 3 3
  refine ⟨hchecks, fun hnone => ?_, fun v hv => ?_⟩
  · rw [Option.map_eq_none_iff] at hnone
    exact faults_of_body exec_psmul2 (by rw [hnone]; rfl)
  obtain ⟨hf, ha, -⟩ := h.curve_ok hv
  have hg := h.curve_wf hv
  refine ⟨fun hfit htag => ?_, fun hbad => ?_, fun hfit hfit2 => ?_⟩
  · have hp := h.sourcePoint_ok hv (by simp) hfit (tagged_one_iff.mp htag)
    have hexec := psmul v hv hfit htag
    have hok (hraw : s.tag rs2 = .raw) (hk : s.val rs2 < 2 ^ v.crv.sbits) :=
      h.writesPoint hv (hexec.trans (congrArg _ (psmulTail_ok hraw hk))) hfit (scalarMul_ok hg ha hp _ _)
    refine ⟨fun hraw => faults_of_body hexec ?_, fun hraw hlong => faults_of_body hexec ?_, hok, fun hraw h0 => ?_⟩
    · rw [psmulTail, State.needRaw_of_ne hraw]
      rfl
    · rw [psmulTail, State.needRaw_eq_ok.mpr ⟨hraw, rfl⟩]
      simp only [Attempt.ok_bind, scalarLong_iff.mpr hlong]
      rfl
    · have hresult := hok hraw (h0 ▸ Nat.two_pow_pos _)
      rwa [show s.val rs2 = 0 from h0, scalarMul_zero] at hresult
  · rw [← psmul2Past_iff, Bool.not_eq_false] at hbad
    refine faults_of_body exec_psmul2 ?_
    rw [hv, orRaise]
    simp only [Attempt.ok_bind, hbad]
    rfl
  · have hexec := exec_of_checks exec_psmul2 hv (psmul2Past_iff.mpr ⟨hfit, hfit2⟩)
    refine ⟨fun hbad => faults_of_body hexec (psmul2Tail_error hbad), fun htag hraw1 hraw2 => ?_⟩
    rw [psmul2Tail_eq htag hraw1 hraw2] at hexec
    refine ⟨fun hlong => faults_of_body hexec ?_, fun hk1 hk2 => ?_⟩
    · have hbad : (decide (v.crv.sbits < bitLength (s.val rs2)) ||
          decide (v.crv.sbits < bitLength (s.regAt (rs2.toNat + 1)).val)) = true := by
        rw [Bool.or_eq_true, scalarLong_iff, scalarLong_iff]
        exact hlong
      rw [hbad]
      rfl
    · rw [scalarLong_eq_false.mpr hk1, scalarLong_eq_false.mpr hk2] at hexec
      have hfit6 := hfit _ (List.mem_cons_of_mem _ List.mem_cons_self)
      obtain ⟨h1, h2⟩ := tagged_two_points.mp (tagged_one_iff.mp htag)
      simp only at hfit6
      exact h.writesPoint hv hexec hfit (scalarMul2_ok hg ha (h.pointAt_ok hf (by omega) h1)
        (h.pointAt_ok hf (by omega) h2) _ _ _)

end

end Sys2Proof.Machine
end

section
/-! The windowed non-adjacent form (46_wnaf.md section 1). -/

namespace Sys2Proof.Machine

/-! ### One digit -/

section
variable {w c : Nat}

theorem wnafDigit_even (h : c % 2 = 0) : wnafDigit w c = 0 := if_neg (by omega)

/-- The digit of an odd remainder is its residue modulo 2^(w+1) nearest to 0 (R310). -/
theorem wnafDigit_odd (h : c % 2 = 1) :
    wnafDigit w c = if 2 ^ w < c % 2 ^ (w + 1) then ((c % 2 ^ (w + 1) : Nat) : Int) - 2 ^ (w + 1) else (c % 2 ^ (w + 1) : Nat) :=
  if_pos h

theorem mod_two_pow_odd (h : c % 2 = 1) : c % 2 ^ (w + 1) % 2 = 1 := by
  rwa [Nat.mod_mod_of_dvd _ ⟨2 ^ w, pow_succ' 2 w⟩]

/-- The digit of an odd remainder: odd, small, and congruent to the remainder. -/
theorem wnafDigit_spec (hw : 1 ≤ w) (h : c % 2 = 1) :
    wnafDigit w c % 2 = 1 ∧ (wnafDigit w c).natAbs ≤ 2 ^ w - 1 ∧ wnafDigit w c ≤ c ∧
      ∃ q : Nat, (c : Int) - wnafDigit w c = 2 ^ (w + 1) * q := by
  have hodd := mod_two_pow_odd (w := w) h
  have hlt := Nat.mod_lt c (Nat.two_pow_pos (w + 1))
  have hdiv := Nat.div_add_mod c (2 ^ (w + 1))
  have hpow : 2 ^ (w + 1) = 2 * 2 ^ w := by ring
  have hpow' : (2 : Int) ^ (w + 1) = 2 * (2 ^ w : Nat) := by push_cast; ring
  have hbase : 2 ^ w % 2 = 0 := by
    obtain ⟨v, rfl⟩ : ∃ v, w = v + 1 := ⟨w - 1, by omega⟩
    rw [pow_succ]
    omega
  rw [wnafDigit_odd h]
  split
  next hbig =>
    refine ⟨by omega, by omega, by omega, c / 2 ^ (w + 1) + 1, ?_⟩
    have hcast : ((2 ^ (w + 1) * (c / 2 ^ (w + 1)) + c % 2 ^ (w + 1) : Nat) : Int) = c := congrArg _ hdiv
    push_cast at hcast ⊢
    linarith
  next hsmall =>
    refine ⟨by omega, by omega, by omega, c / 2 ^ (w + 1), ?_⟩
    have hcast : ((2 ^ (w + 1) * (c / 2 ^ (w + 1)) + c % 2 ^ (w + 1) : Nat) : Int) = c := congrArg _ hdiv
    push_cast at hcast ⊢
    linarith

/-- The remainder after a digit (R310). -/
def wnafNext (w c : Nat) : Nat := (((c : Int) - wnafDigit w c) / 2).toNat

theorem wnafNext_even (h : c % 2 = 0) : wnafNext w c = c / 2 := by
  rw [wnafNext, wnafDigit_even h]
  omega

/-- After a non-zero digit the remainder is a multiple of 2^w. -/
theorem wnafNext_odd (hw : 1 ≤ w) (h : c % 2 = 1) : ∃ q, wnafNext w c = 2 ^ w * q ∧ (c : Int) - wnafDigit w c = 2 ^ (w + 1) * q := by
  obtain ⟨-, -, -, q, hq⟩ := wnafDigit_spec hw h
  refine ⟨q, ?_, hq⟩
  rw [wnafNext, hq, pow_succ', mul_assoc, Int.mul_ediv_cancel_left _ (by decide)]
  exact_mod_cast Int.toNat_natCast (2 ^ w * q)

theorem wnafNext_spec (hw : 1 ≤ w) (c : Nat) : (c : Int) = wnafDigit w c + 2 * wnafNext w c := by
  rcases Nat.mod_two_eq_zero_or_one c with h | h
  · rw [wnafDigit_even h, wnafNext_even h]
    omega
  · obtain ⟨q, hnext, hq⟩ := wnafNext_odd hw h
    rw [hnext]
    push_cast
    rw [pow_succ] at hq
    linarith

/-- Twice the remainder after a non-zero digit is a multiple of 2^(w+1) less than 2^w above the one before. -/
theorem wnafNext_odd_lt (hw : 1 ≤ w) (h : c % 2 = 1) : ∃ q, wnafNext w c = 2 ^ w * q ∧ 2 ^ (w + 1) * q < c + 2 ^ w := by
  obtain ⟨q, hnext, hq⟩ := wnafNext_odd hw h
  obtain ⟨-, habs, -, -⟩ := wnafDigit_spec hw h
  have hpos := Nat.two_pow_pos w
  refine ⟨q, hnext, ?_⟩
  have hlt : ((2 ^ (w + 1) * q : Nat) : Int) < (c + 2 ^ w : Nat) := by
    push_cast
    rw [← hq]
    have hcast : ((2 ^ w : Nat) : Int) = 2 ^ w := by push_cast; rfl
    omega
  exact_mod_cast hlt

theorem wnafNext_odd_small (hw : 1 ≤ w) (h : c % 2 = 1) (hc : c ≤ 2 ^ w) : wnafNext w c = 0 := by
  obtain ⟨q, hnext, hlt⟩ := wnafNext_odd_lt hw h
  have hq : q = 0 := by
    by_contra hne
    have hmul := Nat.mul_le_mul_left (2 ^ (w + 1)) (Nat.pos_of_ne_zero hne)
    rw [pow_succ] at hmul hlt
    omega
  rw [hnext, hq, Nat.mul_zero]

/-- A remainder of at most 2^(n+1) leaves one of at most 2^n. -/
theorem wnafNext_le (hw : 1 ≤ w) {n : Nat} (hc : c ≤ 2 ^ (n + 1)) : wnafNext w c ≤ 2 ^ n := by
  rcases Nat.mod_two_eq_zero_or_one c with h | h
  · rw [wnafNext_even h]
    rw [pow_succ] at hc
    omega
  · rcases Nat.lt_or_ge n w with hnw | hnw
    · rw [wnafNext_odd_small hw h (hc.trans (Nat.pow_le_pow_right (by decide) hnw))]
      exact Nat.zero_le _
    · obtain ⟨q, hnext, hlt⟩ := wnafNext_odd_lt hw h
      obtain ⟨e, rfl⟩ := Nat.exists_eq_add_of_le hnw
      have hq : q ≤ 2 ^ e := by
        by_contra hgt
        have hmul := Nat.mul_le_mul_left (2 ^ (w + 1)) (Nat.lt_of_not_le hgt)
        have hsplit : 2 ^ (w + 1) * (2 ^ e).succ = 2 ^ (w + e + 1) + 2 * 2 ^ w := by
          rw [Nat.succ_eq_add_one]
          ring
        omega
      rw [hnext, pow_add]
      exact Nat.mul_le_mul_left _ hq

theorem wnafNext_one (hw : 1 ≤ w) (hc : c ≤ 1) : wnafNext w c = 0 := by
  rcases Nat.mod_two_eq_zero_or_one c with h | h
  · rw [wnafNext_even h]
    omega
  · exact wnafNext_odd_small hw h (hc.trans Nat.one_le_two_pow)

/-! ### The digit loop -/

theorem wnafLoop_succ {n : Nat} (hc : c ≠ 0) : wnafLoop w (n + 1) c = wnafDigit w c :: wnafLoop w n (wnafNext w c) := by
  rw [wnafLoop, if_neg hc]
  rfl

theorem wnafLoop_zero {n : Nat} : wnafLoop w n 0 = [] := by
  cases n with
  | zero => rfl
  | succ n => rw [wnafLoop, if_pos rfl]

theorem wnafLoop_length_le (w n c : Nat) : (wnafLoop w n c).length ≤ n := by
  induction n generalizing c with
  | zero => exact Nat.le_refl 0
  | succ n ih =>
    by_cases hc : c = 0
    · rw [hc, wnafLoop_zero]
      exact Nat.zero_le _
    · rw [wnafLoop_succ hc, List.length_cons]
      exact Nat.succ_le_succ (ih _)

/-- The digits sum to the remainder (R313). -/
theorem digitSum_wnafLoop (hw : 1 ≤ w) {n : Nat} (hc : c ≤ 2 ^ n) : digitSum (wnafLoop w (n + 1) c) = c := by
  induction n generalizing c with
  | zero =>
    by_cases h0 : c = 0
    · rw [h0, wnafLoop_zero]
      rfl
    · have hspec := wnafNext_spec hw c
      rw [wnafNext_one hw hc] at hspec
      rw [wnafLoop_succ h0, wnafNext_one hw hc]
      simpa [wnafLoop, digitSum] using hspec.symm
  | succ n ih =>
    by_cases h0 : c = 0
    · rw [h0, wnafLoop_zero]
      rfl
    · rw [wnafLoop_succ h0, digitSum, ih (wnafNext_le hw hc)]
      exact (wnafNext_spec hw c).symm

theorem wnafDigit_ne_zero (h : wnafDigit w c ≠ 0) : c % 2 = 1 := by
  rcases Nat.mod_two_eq_zero_or_one c with h0 | h1
  · exact absurd (wnafDigit_even h0) h
  · exact h1

/-- Every non-zero digit is odd and small (R313). -/
theorem wnafLoop_digits (hw : 1 ≤ w) (n c : Nat) :
    ∀ d ∈ wnafLoop w n c, d ≠ 0 → d % 2 = 1 ∧ d.natAbs ≤ 2 ^ w - 1 := by
  induction n generalizing c with
  | zero => exact fun d hd => absurd hd List.not_mem_nil
  | succ n ih =>
    by_cases hc : c = 0
    · rw [hc, wnafLoop_zero]
      exact fun d hd => absurd hd List.not_mem_nil
    · rw [wnafLoop_succ hc]
      rintro d (_ | ⟨_, hd⟩) hne
      · obtain ⟨hodd, habs, -⟩ := wnafDigit_spec hw (wnafDigit_ne_zero hne)
        exact ⟨hodd, habs⟩
      · exact ih _ d hd hne

/-- A multiple of 2^e begins with e zero digits. -/
theorem wnafLoop_zeros {e j : Nat} (hj : j < e) (n q : Nat) : (wnafLoop w n (2 ^ e * q)).getD j 0 = 0 := by
  induction n generalizing e j q with
  | zero => rfl
  | succ n ih =>
    obtain ⟨e, rfl⟩ : ∃ e', e = e' + 1 := ⟨e - 1, by omega⟩
    by_cases hc : 2 ^ (e + 1) * q = 0
    · rw [hc, wnafLoop_zero]
      rfl
    · have heven : 2 ^ (e + 1) * q = 2 * (2 ^ e * q) := by ring
      have hmod : 2 ^ (e + 1) * q % 2 = 0 := by omega
      rw [wnafLoop_succ hc, wnafDigit_even hmod, wnafNext_even hmod, heven, Nat.mul_div_cancel_left _ (by decide)]
      cases j with
      | zero => rfl
      | succ j => exact ih (by omega) q

/-- A non-zero digit is followed by w zeros (R313). -/
theorem wnafLoop_apart (hw : 1 ≤ w) (n c : Nat) {i j : Nat} (hij : i < j) (hj : j ≤ i + w)
    (h : (wnafLoop w n c).getD i 0 ≠ 0) : (wnafLoop w n c).getD j 0 = 0 := by
  induction n generalizing c i j with
  | zero => exact rfl
  | succ n ih =>
    by_cases hc : c = 0
    · rw [hc, wnafLoop_zero]
      rfl
    · rw [wnafLoop_succ hc] at h ⊢
      obtain ⟨j, rfl⟩ : ∃ j', j = j' + 1 := ⟨j - 1, by omega⟩
      cases i with
      | zero =>
        obtain ⟨q, hnext, -⟩ := wnafNext_odd hw (wnafDigit_ne_zero h)
        rw [List.getD_cons_succ, hnext]
        exact wnafLoop_zeros (by omega) n q
      | succ i => exact ih _ (by omega) (by omega) h

theorem wnafDigit_pos_of_last (hw : 1 ≤ w) (hpos : 0 < c) (hnext : wnafNext w c = 0) : 0 < wnafDigit w c := by
  have hspec := wnafNext_spec hw c
  rw [hnext] at hspec
  omega

/-- The last digit of a positive number is positive (R313). -/
theorem wnafLoop_last_pos (hw : 1 ≤ w) {n : Nat} (hc : c ≤ 2 ^ n) (hpos : 0 < c) (a : Int) :
    0 < (wnafLoop w (n + 1) c).getLastD a := by
  induction n generalizing c a with
  | zero =>
    rw [wnafLoop_succ hpos.ne', wnafNext_one hw hc, wnafLoop_zero]
    exact wnafDigit_pos_of_last hw hpos (wnafNext_one hw hc)
  | succ n ih =>
    rw [wnafLoop_succ hpos.ne', List.getLastD_cons]
    rcases Nat.eq_zero_or_pos (wnafNext w c) with hnext | hnext
    · rw [hnext, wnafLoop_zero]
      exact wnafDigit_pos_of_last hw hpos hnext
    · exact ih (wnafNext_le hw hc) hnext _

/-! ### The digit sequence -/

theorem wnaf_of_pos {k : Nat} (hk : k ≠ 0) (w : Nat) : wnaf k w = wnafLoop w (bitLength k + 1) k := if_neg hk

theorem wnaf_zero (w : Nat) : wnaf 0 w = [0] := if_pos rfl

theorem digitSum_wnaf (hw : 1 ≤ w) (k : Nat) : digitSum (wnaf k w) = k := by
  by_cases hk : k = 0
  · rw [hk, wnaf_zero]
    rfl
  · rw [wnaf_of_pos hk]
    exact digitSum_wnafLoop hw (lt_two_pow_bitLength k).le

theorem wnaf_digits (hw : 1 ≤ w) (k : Nat) : ∀ d ∈ wnaf k w, d ≠ 0 → d % 2 = 1 ∧ d.natAbs ≤ 2 ^ w - 1 := by
  by_cases hk : k = 0
  · rw [hk, wnaf_zero]
    exact fun d hd hne => absurd (List.mem_singleton.mp hd) hne
  · rw [wnaf_of_pos hk]
    exact wnafLoop_digits hw _ k

theorem wnaf_length (k w : Nat) : (wnaf k w).length ≤ bitLength k + 1 ∧ 1 ≤ (wnaf k w).length := by
  by_cases hk : k = 0
  · rw [hk, wnaf_zero]
    exact ⟨Nat.le_refl 1, Nat.le_refl 1⟩
  · rw [wnaf_of_pos hk]
    refine ⟨wnafLoop_length_le _ _ _, ?_⟩
    rw [wnafLoop_succ hk]
    exact Nat.succ_le_succ (Nat.zero_le _)

end

/-- Settles O50. -/
theorem wnafProperties : Obligations.WnafProperties := by
  intro k w hw
  refine ⟨digitSum_wnaf hw k, wnaf_digits hw k, fun i j hij hj h => ?_, fun hpos => ?_, (wnaf_length k w).1,
    (wnaf_length k w).2, wnaf_zero w⟩
  · by_cases hk : k = 0
    · obtain ⟨j, rfl⟩ : ∃ j', j = j' + 1 := ⟨j - 1, by omega⟩
      rw [hk, wnaf_zero]
      rfl
    · rw [wnaf_of_pos hk] at h ⊢
      exact wnafLoop_apart hw _ k hij hj h
  · rw [wnaf_of_pos hpos.ne']
    exact wnafLoop_last_pos hw (lt_two_pow_bitLength k).le hpos 0

end Sys2Proof.Machine
end

section
/-! WNAFENC and WNAFDEC (46_wnaf.md section 2). -/

namespace Sys2Proof.Machine

variable {s t : State}

/-! ### Digits as bytes (R76) -/

/-- A digit of 16 bits is read back as it was written. -/
theorem digitOf_digitBytes {d : Int} (hlo : -2 ^ 15 ≤ d) (hhi : d < 2 ^ 15) :
    digitOf (BitVec.ofNat 8 (BitVec.ofInt 16 d).toNat) (BitVec.ofNat 8 ((BitVec.ofInt 16 d).toNat / 256)) = d := by
  have hjoin : (BitVec.ofNat 8 ((BitVec.ofInt 16 d).toNat / 256) ++ BitVec.ofNat 8 (BitVec.ofInt 16 d).toNat : BitVec 16) =
      BitVec.ofInt 16 d := by
    refine BitVec.eq_of_toNat_eq ?_
    have hlt := (BitVec.ofInt 16 d).isLt
    generalize (BitVec.ofInt 16 d).toNat = v at hlt
    rw [BitVec.toNat_append, BitVec.toNat_ofNat, BitVec.toNat_ofNat, Nat.shiftLeft_eq, Nat.mul_comm,
      ← Nat.two_pow_add_eq_or_of_lt (Nat.mod_lt _ (by decide))]
    omega
  rw [digitOf, hjoin, BitVec.toInt_ofInt, Int.bmod_def]
  omega

theorem digitsOf_digitsBytes {ds : List Int} (h : ∀ d ∈ ds, -2 ^ 15 ≤ d ∧ d < 2 ^ 15) :
    digitsOf (digitsBytes ds) = ds := by
  induction ds with
  | nil => rfl
  | cons d rest ih =>
    obtain ⟨⟨hlo, hhi⟩, hrest⟩ := List.forall_mem_cons.mp h
    rw [show digitsBytes (d :: rest) = digitBytes d ++ digitsBytes rest from rfl, digitBytes]
    simp only [List.cons_append, List.nil_append, digitsOf, digitOf_digitBytes hlo hhi, ih hrest]

/-- The digits that a range of memory spells (R312). -/
theorem digitsOf_bytesAt (addr n : Nat) :
    digitsOf (s.bytesAt addr (2 * n)) =
      (List.range n).map (fun j => digitOf (s.byteAt (addr + 2 * j)) (s.byteAt (addr + 2 * j + 1))) := by
  induction n generalizing addr with
  | zero => rfl
  | succ n ih =>
    have hbytes : s.bytesAt addr (2 * (n + 1)) = s.byteAt addr :: s.byteAt (addr + 1) :: s.bytesAt (addr + 2) (2 * n) := by
      rw [Nat.mul_succ, State.bytesAt, List.range_succ_eq_map, List.range_succ_eq_map]
      simp only [List.map_cons, List.map_map, State.bytesAt]
      congr 3
      funext j
      simp only [Function.comp, Nat.succ_eq_add_one]
      congr 1
      omega
    rw [hbytes, digitsOf, ih, List.range_succ_eq_map, List.map_cons, List.map_map]
    congr 1
    refine List.map_congr_left fun j _ => ?_
    simp only [Function.comp, Nat.succ_eq_add_one]
    congr 2 <;> omega

theorem window_pos {w : BitVec 4} (hw : w ≠ 0#4) : 1 ≤ w.toNat := by
  by_contra h0
  exact hw (BitVec.eq_of_toNat_eq (by simp; omega))

/-- The digits of any window fit 16 bits (R76). -/
theorem wnaf_digit_bounds {w : BitVec 4} (hw : w ≠ 0#4) (k : Nat) : ∀ d ∈ wnaf k w.toNat, -2 ^ 15 ≤ d ∧ d < 2 ^ 15 := by
  intro d hd
  have hpow : 2 ^ w.toNat ≤ 2 ^ 15 := Nat.pow_le_pow_right (by decide) (by have := w.isLt; omega)
  by_cases h0 : d = 0
  · omega
  · have := (wnaf_digits (window_pos hw) k d hd h0).2
    omega

/-! ### WNAFENC (R311) -/

section
variable {rd rs1 rs2 : RegIx} {w : BitVec 4}

theorem window_ne_zero : decide (w.toNat = 0) = false ↔ w ≠ 0#4 := by
  rw [decide_eq_false_iff_not, not_iff_not]
  exact ⟨fun h => BitVec.eq_of_toNat_eq h, fun h => by rw [h]; rfl⟩

/-- The state WNAFENC leaves but for PC. -/
def State.encoded (s : State) (rd rs1 rs2 : RegIx) (w : BitVec 4) : State :=
  (s.putBytes (s.val rs2) (digitsBytes (wnaf (s.val rs1) w.toNat))).setRaw rd (wnaf (s.val rs1) w.toNat).length

theorem exec_wnafenc (hw : w ≠ 0#4) (hraw : s.tag rs1 = .raw)
    (hin : s.InsideDm (s.val rs2) (2 * (wnaf (s.val rs1) w.toNat).length)) :
    exec (.wnafenc rd rs1 rs2 w) s = .next (s.next (s.encoded rd rs1 rs2 w)) := by
  refine exec_of_body rfl ?_
  have hwrite : s.writeMem (s.val rs2) (digitsBytes (wnaf (s.val rs1) w.toNat)) = .ok (s.putBytes _ _) :=
    State.writeMem_eq_ok.mpr ⟨by rw [digitsBytes_length]; exact State.admits_iff.mpr hin, rfl⟩
  rw [window_ne_zero.mpr hw, State.needRaw_eq_ok.mpr ⟨hraw, rfl⟩]
  simp only [raiseIf_false, Attempt.ok_bind, hwrite]
  rfl

/-- The digits are no longer than the register allows (R313). -/
theorem State.Inv.wnaf_length_le (h : s.Inv) (rs1 : RegIx) (w : Nat) : (wnaf (s.val rs1) w).length ≤ s.par.bits + 1 :=
  (wnaf_length _ w).1.trans (Nat.succ_le_succ ((bitLength_le_iff _ _).mpr (h.val_lt rs1)))

theorem bits_succ_lt {p : Params} (h : p.valid = true) : p.bits + 1 < 2 ^ p.bits := by
  have := Params.bits_ge h
  obtain ⟨n, hn⟩ : ∃ n, p.bits = n + 2 := ⟨p.bits - 2, by omega⟩
  have := Nat.lt_two_pow_self (n := n)
  rw [hn, pow_add]
  omega

theorem State.Inv.encoded_rd (h : s.Inv) :
    (s.encoded rd rs1 rs2 w).regAt rd.toNat = { val := (wnaf (s.val rs1) w.toNat).length, tag := .raw } := by
  have hlt := (h.wnaf_length_le rs1 w.toNat).trans_lt (bits_succ_lt h.par)
  rw [State.encoded, State.regAt_setRaw, if_pos rfl, State.putBytes_par, Nat.mod_eq_of_lt hlt]

theorem State.encoded_regAt {k : Nat} (hk : k ≠ rd.toNat) : (s.encoded rd rs1 rs2 w).regAt k = s.regAt k := by
  rw [State.encoded, State.regAt_setRaw, if_neg hk]
  rfl

/-- What WNAFENC stored reads back as the digits (R312). -/
theorem State.Inv.encoded_digits (h : s.Inv) (hw : w ≠ 0#4) :
    digitsOf ((s.encoded rd rs1 rs2 w).bytesAt (s.val rs2) (2 * (wnaf (s.val rs1) w.toNat).length)) =
      wnaf (s.val rs1) w.toNat := by
  have hback := State.bytesAt_putBytes h (s.val rs2) (digitsBytes (wnaf (s.val rs1) w.toNat))
  rw [digitsBytes_length] at hback
  exact (congrArg digitsOf hback).trans (digitsOf_digitsBytes (wnaf_digit_bounds hw _))

/-! ### WNAFDEC (R312) -/

/-- The part of WNAFDEC after its count is known to be legal. -/
def wnafdecTail (s : State) (rd rs2 : RegIx) (n : Nat) : Attempt State := do
  let bytes ← s.readMem (s.val rs2) (2 * n)
  raiseIf (decide (digitSum (digitsOf bytes) < 0) || decide ((2 ^ s.par.bits : Nat) ≤ digitSum (digitsOf bytes))) .outOfRange
  .ok (s.setRaw rd (digitSum (digitsOf bytes)).toNat)

theorem exec_wnafdec_tail (hraw : s.tag rs1 = .raw) (hn : s.val rs1 ≤ s.par.bits + 1) :
    exec (.wnafdec rd rs1 rs2) s = conclude (.wnafdec rd rs1 rs2) s (wnafdecTail s rd rs2 (s.val rs1)) := by
  change conclude _ s (s.needRaw rs1 >>= fun n => raiseIf (decide (s.par.bits + 1 < n)) .outOfRange >>= fun _ =>
    wnafdecTail s rd rs2 n) = _
  rw [State.needRaw_eq_ok.mpr ⟨hraw, rfl⟩]
  simp only [Attempt.ok_bind, decide_eq_false (Nat.not_lt.mpr hn)]
  rfl

theorem exec_wnafdec (hraw : s.tag rs1 = .raw) (hn : s.val rs1 ≤ s.par.bits + 1)
    (hin : s.InsideDm (s.val rs2) (2 * s.val rs1)) {v : Nat} (hv : v < 2 ^ s.par.bits)
    (hsum : digitSum (digitsOf (s.bytesAt (s.val rs2) (2 * s.val rs1))) = v) :
    ∃ t, exec (.wnafdec rd rs1 rs2) s = .next t ∧ RawResult s t rd v := by
  refine ⟨_, exec_of_body (exec_wnafdec_tail hraw hn) ?_, rawResult_setRaw hv⟩
  have hlow : ¬ ((v : Int) < 0) := by omega
  have hhigh : ¬ ((2 ^ s.par.bits : Nat) : Int) ≤ v := by omega
  rw [wnafdecTail, State.readMem_eq_ok.mpr ⟨State.admits_iff.mpr hin, rfl⟩]
  simp only [Attempt.ok_bind, hsum, decide_eq_false hlow, decide_eq_false hhigh]
  rfl

/-- Settles O51. -/
theorem wnafCommands : Obligations.WnafCommands := by
  intro s h rd rs1 rs2 w addr ds n
  refine ⟨fun hw => faults_of_body rfl ?_, fun hw hraw => faults_of_body rfl ?_, fun hw hraw hin => ?_,
    fun hraw => faults_of_body rfl ?_, fun hraw hn => faults_of_body rfl ?_, fun hraw hn hin => ?_⟩
  · rw [hw]
    rfl
  · rw [window_ne_zero.mpr hw, State.needRaw_of_ne hraw]
    rfl
  · have hdigits := h.encoded_digits (rd := rd) (rs1 := rs1) (rs2 := rs2) hw
    have hrd := h.encoded_rd (rd := rd) (rs1 := rs1) (rs2 := rs2) (w := w)
    refine ⟨_, exec_wnafenc hw hraw hin, rfl, hrd, fun k hk => State.encoded_regAt hk, fun j hj => ?_, fun a ha => ?_,
      fun _ => rfl, fun hne rd' => ?_⟩
    · rw [digitsOf_bytesAt] at hdigits
      have hlt : j < (wnaf (s.val rs1) w.toNat).length := hj
      have hget := congrArg (List.getD · j 0) hdigits
      rw [List.getD_eq_getElem _ _ (by simpa using hlt), List.getElem_map, List.getElem_range] at hget
      exact hget
    · exact State.byteAt_putBytes_of_out (by rwa [digitsBytes_length])
    · have hreg : (s.next (s.encoded rd rs1 rs2 w)).regAt rd.toNat = _ := hrd
      have hrs2 : (s.next (s.encoded rd rs1 rs2 w)).val rs2 = s.val rs2 :=
        congrArg Reg.val (State.encoded_regAt fun heq => hne (BitVec.eq_of_toNat_eq heq.symm))
      have hcount : (s.next (s.encoded rd rs1 rs2 w)).val rd = (wnaf (s.val rs1) w.toNat).length := congrArg Reg.val hreg
      refine exec_wnafdec (congrArg Reg.tag hreg) ?_ ?_ (h.val_lt rs1) ?_
      · rw [hcount]
        exact h.wnaf_length_le rs1 w.toNat
      · rw [hcount, hrs2]
        exact hin
      · rw [hcount, hrs2]
        exact (congrArg digitSum hdigits).trans (digitSum_wnaf (window_pos hw) _)
  · rw [State.needRaw_of_ne hraw]
    rfl
  · rw [State.needRaw_eq_ok.mpr ⟨hraw, rfl⟩]
    simp only [Attempt.ok_bind]
    rw [decide_eq_true (show s.par.bits + 1 < s.val rs1 from hn)]
    rfl
  · have hexec := exec_wnafdec_tail (rd := rd) (rs2 := rs2) hraw hn
    have hread : s.readMem (s.val rs2) (2 * s.val rs1) = .ok (s.bytesAt (s.val rs2) (2 * s.val rs1)) :=
      State.readMem_eq_ok.mpr ⟨State.admits_iff.mpr hin, rfl⟩
    intro sum
    have hsum : digitSum (digitsOf (s.bytesAt (s.val rs2) (2 * s.val rs1))) = sum :=
      congrArg digitSum (digitsOf_bytesAt _ _)
    refine ⟨fun hbad => faults_of_body hexec ?_, fun hlow hhigh => ?_⟩
    · have hcheck : (decide (sum < 0) || decide (((2 ^ s.par.bits : Nat) : Int) ≤ sum)) = true := by
        rw [Bool.or_eq_true, decide_eq_true_iff, decide_eq_true_iff]
        exact hbad.imp_right fun hle => by exact_mod_cast hle
      rw [wnafdecTail, hread]
      simp only [Attempt.ok_bind, hsum, hcheck]
      rfl
    · have hv : (sum.toNat : Int) = sum := Int.toNat_of_nonneg hlow
      have hlt : sum.toNat < 2 ^ s.par.bits := by
        rw [← hv] at hhigh
        exact_mod_cast hhigh
      obtain ⟨t, ht, hresult⟩ := exec_wnafdec (rd := rd) hraw hn hin hlt (hsum.trans hv.symm)
      exact ⟨t, _, ht, hresult, hv⟩

end

end Sys2Proof.Machine
end

section
/-! The lines of the Miller loop and the precomputations (47_pairing.md section 2). -/

namespace Sys2Proof.Machine

/-! ### Lines over the ring of a tier (R324) -/

section
variable {R : Type} [CommRing R] {f : Fld} (m : f.Model R)

/-- The line of the doubling step. -/
def Fld.Model.tangentLine (a : R) (p : Jac R) : Line :=
  { c0 := m.val (2 * (p.y * p.z ^ 3)), c1 := m.val (-(p.slope a * p.z ^ 2)),
    c3 := m.val (p.slope a * p.x - 2 * p.y ^ 2) }

/-- H of the addition step for an affine pair. -/
def Jac.chordH (x2 : R) (p : Jac R) : R := x2 * p.z ^ 2 - p.x

/-- S of the addition step for an affine pair. -/
def Jac.chordS (y2 : R) (p : Jac R) : R := y2 * p.z ^ 3 - p.y

/-- The line of the addition step. -/
def Fld.Model.chordLine (x2 y2 : R) (p : Jac R) : Line :=
  { c0 := m.val (p.z * p.chordH x2), c1 := m.val (-p.chordS y2),
    c3 := m.val (p.chordS y2 * x2 - y2 * p.z * p.chordH x2) }

theorem Fld.Model.passes_iff {c0 c1 c3 : R} {p : Jac R} :
    Line.passes f { c0 := m.val c0, c1 := m.val c1, c3 := m.val c3 } (m.pt p) ↔
      c0 * p.y + c1 * p.x * p.z + c3 * p.z ^ 3 = 0 := by
  simp only [Line.passes, m.pt_x, m.pt_y, m.pt_z, m.mul, m.add, m.prodOf, m.zero, m.val_inj]

theorem Fld.Model.tangentLine_passes (a : R) (p : Jac R) : (m.tangentLine a p).passes f (m.pt p) := by
  refine m.passes_iff.mpr ?_
  ring

theorem Fld.Model.chordLine_passes (x2 y2 : R) (p : Jac R) : (m.chordLine x2 y2 p).passes f (m.pt p) := by
  refine m.passes_iff.mpr ?_
  simp only [Jac.chordH, Jac.chordS]
  ring

theorem Fld.Model.chordLine_passes_pair (x2 y2 : R) (p : Jac R) :
    (m.chordLine x2 y2 p).passes f (m.pt ⟨x2, y2, 1⟩) := by
  refine m.passes_iff.mpr ?_
  simp only [Jac.chordH, Jac.chordS]
  ring

variable [DecidableEq R]

theorem Fld.Model.doublingStep (a : R) (p : Jac R) :
    doublingStep f (m.val a) (m.pt p) =
      if p.z = 0 ∨ p.y = 0 then none else some (m.tangentLine a p, m.pt (p.double a)) := by
  rw [Machine.doublingStep, m.isInf, m.pt_y, m.isZero_eq, m.double]
  by_cases h : p.z = 0 ∨ p.y = 0
  · rw [if_pos (by simpa using h), if_pos h]
  · rw [if_neg (by simpa using h), if_neg h]
    simp only [m.pt_x, m.pt_z, m.sqr, m.mul, m.times, m.add, m.sub, m.neg, ← pow_mul, ← pow_succ, Nat.cast_ofNat,
      Nat.reduceMul, Nat.reduceAdd, Fld.Model.tangentLine, Jac.slope]

theorem Fld.Model.additionStep (a x2 y2 : R) (p : Jac R) :
    additionStep f (m.val a) (m.val x2) (m.val y2) (m.pt p) =
      if p.z = 0 ∨ p.chordH x2 = 0 then none
      else some (m.chordLine x2 y2 p, m.pt (p.add a ⟨x2, y2, 1⟩)) := by
  rw [Machine.additionStep, m.isInf, m.affinePoint, m.addPoints]
  by_cases hz : p.z = 0
  · rw [if_pos (decide_eq_true hz), if_pos (.inl hz)]
  rw [if_neg (by simpa using hz)]
  simp only [m.pt_x, m.pt_y, m.pt_z, m.sqr, m.mul, m.sub, m.neg, ← pow_succ, m.isZero]
  change (if p.chordH x2 = 0 then none else some (m.chordLine x2 y2 p, m.pt (p.add a ⟨x2, y2, 1⟩))) = _
  by_cases hh : p.chordH x2 = 0
  · rw [if_pos hh, if_pos (.inr hh)]
  · rw [if_neg hh, if_neg (not_or.mpr ⟨hz, hh⟩)]

theorem Fld.Model.tangentRule (a : R) (p : Jac R) (l : Line) (u : JPoint) :
    TangentRule f (m.val a) (m.pt p) l u ↔ p.z ≠ 0 ∧ p.y ≠ 0 ∧ l = m.tangentLine a p ∧ u = m.pt (p.double a) := by
  obtain ⟨c0, c1, c3⟩ := l
  simp only [TangentRule, m.doubleRule, m.pt_x, m.pt_y, m.pt_z, m.prodOf, m.mul, m.sumOf, m.add, m.sub, m.neg, m.zero,
    m.val_inj, ne_eq, Nat.cast_ofNat, Fld.Model.tangentLine, Jac.slope, Line.mk.injEq, and_assoc]

theorem Fld.Model.chordRule (a x2 y2 : R) (p : Jac R) (l : Line) (u : JPoint) :
    ChordRule f (m.val a) (m.val x2) (m.val y2) (m.pt p) l u ↔
      p.z ≠ 0 ∧ p.chordH x2 ≠ 0 ∧ l = m.chordLine x2 y2 p ∧ u = m.pt (p.add a ⟨x2, y2, 1⟩) := by
  obtain ⟨c0, c1, c3⟩ := l
  have hpair : ({ x := m.val x2, y := m.val y2, z := f.one } : JPoint) = m.pt ⟨x2, y2, 1⟩ := m.affinePoint x2 y2
  simp only [ChordRule, hpair, m.addRule, m.pt_x, m.pt_y, m.pt_z, m.prodOf, m.mul, m.sub, m.neg, m.zero,
    m.val_inj, ne_eq, Fld.Model.chordLine, Jac.chordH, Jac.chordS, Line.mk.injEq, and_assoc]

end

/-- Settles O54, in the ring of the tier. -/
theorem linesPassThroughTheirPoints : Obligations.LinesPassThroughTheirPoints := by
  classical
  intro f a x2 y2 t hf ha hx hy ht
  obtain ⟨R, _, ⟨m⟩⟩ := Fld.exists_model hf
  obtain ⟨a, rfl⟩ := m.exists_of_ok ha
  obtain ⟨x2, rfl⟩ := m.exists_of_ok hx
  obtain ⟨y2, rfl⟩ := m.exists_of_ok hy
  obtain ⟨p, rfl⟩ := m.exists_of_pointOk ht
  have hpair : ({ x := m.val x2, y := m.val y2, z := f.one } : JPoint) = m.pt ⟨x2, y2, 1⟩ := m.affinePoint x2 y2
  rw [m.doublingStep, m.additionStep, hpair]
  refine ⟨fun l u h => ?_, fun l u h => ?_, ?_, ?_⟩
  · obtain ⟨hne, heq⟩ := Option.ite_none_left_eq_some.mp h
    obtain ⟨rfl, rfl⟩ := Prod.mk.inj (Option.some.inj heq)
    obtain ⟨hz, hy⟩ := not_or.mp hne
    exact ⟨(m.tangentRule a p _ _).mpr ⟨hz, hy, rfl, rfl⟩, m.tangentLine_passes a p, (m.double a p).symm⟩
  · obtain ⟨hne, heq⟩ := Option.ite_none_left_eq_some.mp h
    obtain ⟨rfl, rfl⟩ := Prod.mk.inj (Option.some.inj heq)
    obtain ⟨hz, hh⟩ := not_or.mp hne
    exact ⟨(m.chordRule a x2 y2 p _ _).mpr ⟨hz, hh, rfl, rfl⟩, m.chordLine_passes x2 y2 p,
      m.chordLine_passes_pair x2 y2 p, (m.addPoints a p _).symm⟩
  · simp only [m.pt_y, m.pt_z, m.zero, m.val_inj, ite_eq_left_iff, reduceCtorEq, imp_false, not_not]
  · simp only [m.pt_x, m.pt_z, m.prodOf, m.mul, m.zero, m.val_inj, ite_eq_left_iff, reduceCtorEq, imp_false, not_not,
      Jac.chordH, sub_eq_zero]

end Sys2Proof.Machine
end

section
/-! The precomputations PRECG1 and PRECG2 (47_pairing.md section 2). -/

namespace Sys2Proof.Machine

/-! ### The chain of lines (R324) -/

section
variable {R : Type} [CommRing R] [DecidableEq R] {f : Fld} (m : f.Model R)

theorem Fld.Model.doublingStep_eq_some_iff (a : R) (p : Jac R) (l : Line) (u : JPoint) :
    Machine.doublingStep f (m.val a) (m.pt p) = some (l, u) ↔ TangentRule f (m.val a) (m.pt p) l u := by
  rw [m.doublingStep, m.tangentRule, Option.ite_none_left_eq_some, not_or, Option.some.injEq, Prod.mk.injEq,
    eq_comm (b := l), eq_comm (b := u), and_assoc]

theorem Fld.Model.additionStep_eq_some_iff (a x2 y2 : R) (p : Jac R) (l : Line) (u : JPoint) :
    Machine.additionStep f (m.val a) (m.val x2) (m.val y2) (m.pt p) = some (l, u) ↔
      ChordRule f (m.val a) (m.val x2) (m.val y2) (m.pt p) l u := by
  rw [m.additionStep, m.chordRule, Option.ite_none_left_eq_some, not_or, Option.some.injEq, Prod.mk.injEq,
    eq_comm (b := l), eq_comm (b := u), and_assoc]

end

/-- One bit of the loop count. -/
theorem lineSteps_succ_eq_some {f : Fld} {a x2 y2 : Elem} {loop n : Nat} {t : JPoint} {lines : List Line} :
    lineSteps f a x2 y2 loop (n + 1) t = some lines ↔
      ∃ l u rest, doublingStep f a t = some (l, u) ∧ lines = l :: rest ∧
        if loop.testBit n then
          ∃ l' u' rest', additionStep f a x2 y2 u = some (l', u') ∧ rest = l' :: rest' ∧
            lineSteps f a x2 y2 loop n u' = some rest'
        else lineSteps f a x2 y2 loop n u = some rest := by
  rw [lineSteps]
  rcases doublingStep f a t with _ | ⟨l, u⟩
  · simp
  by_cases hbit : loop.testBit n
  · rcases hadd : additionStep f a x2 y2 u with _ | ⟨l', u'⟩
    · simp [hbit, hadd]
    rcases hrest : lineSteps f a x2 y2 loop n u' with _ | rest <;> simp [hbit, hadd, hrest, eq_comm]
  · rcases hrest : lineSteps f a x2 y2 loop n u with _ | rest <;> simp [hbit, hrest, eq_comm]

theorem lineSteps_eq_some_iff {f : Fld} {a x2 y2 : Elem} {loop : Nat} (hf : f.wf = true) (ha : f.elemOk a = true)
    (hx : f.elemOk x2 = true) (hy : f.elemOk y2 = true) : ∀ (n : Nat) {t : JPoint} {lines : List Line}, f.pointOk t →
      (lineSteps f a x2 y2 loop n t = some lines ↔ LineChain f a x2 y2 loop n t lines)
  | 0, t, lines, _ => by rw [lineSteps, LineChain, Option.some.injEq, eq_comm]
  | n + 1, t, lines, ht => by
    classical
    obtain ⟨R, _, ⟨m⟩⟩ := Fld.exists_model hf
    obtain ⟨a, rfl⟩ := m.exists_of_ok ha
    obtain ⟨x2, rfl⟩ := m.exists_of_ok hx
    obtain ⟨y2, rfl⟩ := m.exists_of_ok hy
    obtain ⟨p, rfl⟩ := m.exists_of_pointOk ht
    rw [lineSteps_succ_eq_some, LineChain]
    refine exists_congr fun l => exists_congr fun u => exists_congr fun rest => ?_
    rw [m.doublingStep_eq_some_iff]
    refine and_congr_right fun htan => and_congr_right fun _ => ?_
    obtain ⟨-, -, -, rfl⟩ := (m.tangentRule a p l u).mp htan
    split
    · refine exists_congr fun l' => exists_congr fun u' => exists_congr fun rest' => ?_
      rw [m.additionStep_eq_some_iff]
      refine and_congr_right fun hchord => and_congr_right fun _ => ?_
      obtain ⟨-, -, -, rfl⟩ := (m.chordRule a x2 y2 _ l' u').mp hchord
      exact lineSteps_eq_some_iff hf ha hx hy n (m.pt_ok _)
    · exact lineSteps_eq_some_iff hf ha hx hy n (m.pt_ok _)

/-! ### The affine pair of a precomputation (R323) -/

section
variable {g : Fld} (hg : g.wf = true)
include hg

theorem invOrFree_of_hasInverse {a : Elem} (ha : g.elemOk a = true) (hne : a ≠ g.zero) (hinv : g.HasInverse a) :
    g.elemOk (g.invOrFree a) = true ∧ g.mul a (g.invOrFree a) = g.one := by
  obtain ⟨-, w, hw, hok, hone⟩ := inv_of_hasInverse hg (one_lt_char_of_ne_zero hg ha hne) ha hinv
  rw [Fld.invOrFree, hw]
  exact ⟨hok, hone⟩

theorem invOrFree_ok {a : Elem} (ha : g.elemOk a = true) (hne : a ≠ g.zero) : g.elemOk (g.invOrFree a) = true := by
  by_cases hinv : g.HasInverse a
  · exact (invOrFree_of_hasInverse hg ha hne hinv).1
  rw [Fld.invOrFree, inv_of_not_hasInverse hg (one_lt_char_of_ne_zero hg ha hne) ha hinv, Fld.elemOk_iff]
  refine ⟨by simp, fun w hw => ?_⟩
  obtain ⟨i, -, rfl⟩ := List.mem_map.mp hw
  exact Nat.mod_lt _ (Fld.char_pos_of_wf hg)

variable {p : JPoint} (hp : g.pointOk p)
include hp

theorem affineBy_ok {zi : Elem} (hzi : g.elemOk zi = true) :
    g.elemOk (affineBy g p zi).1 = true ∧ g.elemOk (affineBy g p zi).2 = true :=
  have hzi2 := Fld.mul_ok hg hzi hzi
  ⟨Fld.mul_ok hg hp.1 hzi2, Fld.mul_ok hg hp.2.1 (Fld.mul_ok hg hzi2 hzi)⟩

/-- The pair kept for a point that is not at infinity. -/
theorem affineBy_invOrFree (hz : p.z ≠ g.zero) :
    g.elemOk (affineBy g p (g.invOrFree p.z)).1 = true ∧ g.elemOk (affineBy g p (g.invOrFree p.z)).2 = true ∧
      (g.HasInverse p.z →
        g.mul (affineBy g p (g.invOrFree p.z)).1 (g.prodOf 2 p.z) = p.x ∧
        g.mul (affineBy g p (g.invOrFree p.z)).2 (g.prodOf 3 p.z) = p.y) := by
  obtain ⟨hx, hy⟩ := affineBy_ok hg hp (invOrFree_ok hg hp.2.2 hz)
  refine ⟨hx, hy, fun hinv => ?_⟩
  obtain ⟨hok, hone⟩ := invOrFree_of_hasInverse hg hp.2.2 hz hinv
  exact (affineBy_spec hg hp hok hone).2.2

omit hg in
theorem precomputeG1_eq {a b : Elem} : precomputeG1 g a b p =
    if p.z = g.zero ∨ onCurve g a b p = false then none else some (affineBy g p (g.invOrFree p.z)) := by
  simp only [precomputeG1, isInf_iff hp, Bool.or_eq_true, decide_eq_true_eq, Bool.not_eq_true']

omit hg in
theorem precomputeG2_eq {a b : Elem} {loop : Nat} : precomputeG2 g a b loop p =
    if p.z = g.zero ∨ onCurve g a b p = false then none
    else lineSteps g a (affineBy g p (g.invOrFree p.z)).1 (affineBy g p (g.invOrFree p.z)).2 loop (bitLength loop - 1)
      (affinePoint g (affineBy g p (g.invOrFree p.z)).1 (affineBy g p (g.invOrFree p.z)).2) := by
  simp only [precomputeG2, isInf_iff hp, Bool.or_eq_true, decide_eq_true_eq, Bool.not_eq_true']

end

/-! ### The commands -/

section
variable {s : State} {i : Instr} {rs1 : RegIx} {fv : PairingView → FieldView}

/-- The checks of a command of the configuration with one point source, and what is left of its body after them. -/
theorem pairingPoint_command {k : PairingView → JPoint → Attempt State}
    (hi : exec i s = conclude i s (s.needPairing >>= fun v =>
      raiseIf (runsPast rs1.toNat (3 * (fv v).k)) .illegalCommand >>= fun _ =>
      s.needPoint (fv v) rs1.toNat >>= k v)) :
    FieldChecks s i (s.pairingOf.map fv) [(rs1, 3)] [(rs1, 3)] ∧
    ∀ v, s.pairingOf = some v → OperandsFit (fv v) [(rs1, 3)] → OperandsTagged s (fv v) [(rs1, 3)] →
      exec i s = conclude i s (k v (s.pointAt (fv v) rs1.toNat)) := by
  refine ⟨fieldChecks_of_body hi (fun v => pastOf_iff (fv v) rs1 3) fun v hv => ?_, fun v hv hfit htag => ?_⟩
  · rw [State.needPoint_error (mt tagged_one_iff.mpr hv)]
    rfl
  · rw [exec_of_checks hi hv ((pastOf_iff (fv v) rs1 3).mpr hfit), State.needPoint_ok (tagged_one_iff.mp htag)]
    rfl

/-- A body that fills a slot. -/
theorem fillsSlot {slot : SlotIx} {e : Pre} (hexec : exec i s = conclude i s (.ok (s.setPre slot e))) :
    ∃ t, exec i s = .next t ∧ t = { s with pre := t.pre, pc := s.pc + 1#19 } ∧ t.preAt slot = some e ∧
      ∀ n, n ≠ slot → t.preAt n = s.preAt n := by
  refine ⟨_, exec_of_body hexec rfl, rfl, ?_, fun n hn => ?_⟩
  · exact (State.preAt_setPre ..).trans (if_pos rfl)
  · exact (State.preAt_setPre ..).trans (if_neg hn)

end

/-- Settles O53. -/
theorem precomputation : Obligations.Precomputation := by
  intro s h slot rs1
  obtain ⟨hchecks1, exec1⟩ := pairingPoint_command (i := .precg1 slot rs1) (s := s) (fv := (·.g1.fv)) rfl
  obtain ⟨hchecks2, exec2⟩ := pairingPoint_command (i := .precg2 slot rs1) (s := s) (fv := (·.g2.fv)) rfl
  refine ⟨hchecks1, hchecks2, fun v hv => ?_⟩
  obtain ⟨-, h1, h2, -⟩ := State.pairingOf_parts hv
  refine ⟨fun hfit htag => ?_, fun hfit htag => ?_⟩
  · have hp := h.sourcePoint_ok h1 (by simp) hfit (tagged_one_iff.mp htag)
    have hexec := exec1 v hv hfit htag
    rw [precomputeG1_eq hp] at hexec
    refine ⟨fun hbad => faults_of_body hexec ?_, fun hz hon => ?_⟩
    · rw [if_pos hbad]
      rfl
    · rw [if_neg (not_or.mpr ⟨hz, by simpa using hon⟩)] at hexec
      obtain ⟨t, ht, hframe, hslot, hrest⟩ := fillsSlot hexec
      exact ⟨t, _, _, ht, hframe, hslot, hrest, fun hor => (affineBy_invOrFree (h.curve_wf h1) hp hz).2.2
        (hasInverse_of_prime_or (h.curve_sound h1) hp.2.2 hz hor)⟩
  · obtain ⟨-, ha, -⟩ := h.curve_ok h2
    have hg := h.curve_wf h2
    have hp := h.sourcePoint_ok h2 (by simp) hfit (tagged_one_iff.mp htag)
    have hexec := exec2 v hv hfit htag
    refine ⟨fun hbad => faults_of_body hexec ?_, fun hz hon => ?_, fun hnone => faults_of_body hexec ?_, fun lines hl => ?_⟩
    · rw [precomputeG2_eq hp, if_pos hbad]
      rfl
    · obtain ⟨hx, hy, hspec⟩ := affineBy_invOrFree hg hp hz
      refine ⟨_, _, fun hor => hspec (hasInverse_of_prime_or (h.curve_sound h2) hp.2.2 hz hor), fun lines => ?_⟩
      rw [precomputeG2_eq hp, if_neg (not_or.mpr ⟨hz, by simpa using hon⟩)]
      exact lineSteps_eq_some_iff hg ha hx hy _ (affinePoint_ok hg hx hy)
    · rw [hnone]
      rfl
    · rw [hl] at hexec
      exact ⟨precomputeG2_length hl, fillsSlot hexec⟩

end Sys2Proof.Machine
end

section
/-! The Miller loop (47_pairing.md section 3): the values of the lines, the accumulators after each bit, and the terminal
inversion. -/

namespace Sys2Proof.Machine

/-! ### Products of whatever coordinates are reduced (R325) -/

section
variable {f : Fld} (hpos : 0 < f.char)
include hpos

/-- A sum of an element and any longer list is reduced. -/
theorem Fld.add_ok_of_length {a b : Elem} (ha : f.degree ≤ a.length) (hb : b.length = f.degree) :
    f.elemOk (f.add a b) = true := by
  refine Fld.elemOk_iff.mpr ⟨by simp [Fld.add, hb, ha], fun w hw => ?_⟩
  obtain ⟨i, hi, rfl⟩ := List.mem_iff_getElem.mp hw
  simpa [Fld.add] using Nat.mod_lt _ hpos

omit hpos in
theorem Fld.length_of_ok {a : Elem} (ha : f.elemOk a = true) : a.length = f.degree := (Fld.elemOk_iff.mp ha).1

theorem Fld.add_ok_of_ok {a b : Elem} (ha : f.elemOk a = true) (hb : f.elemOk b = true) : f.elemOk (f.add a b) = true :=
  Fld.add_ok_of_length hpos (Fld.length_of_ok ha).ge (Fld.length_of_ok hb)

end

/-- The product takes any two lists to an element: it reads their coordinates with 0 beyond the end and reduces. -/
theorem Fld.mul_ok_of_lists : ∀ {f : Fld}, 0 < f.char → ∀ a b : Elem, f.elemOk (f.mul a b) = true
  | .prime p, hpos, a, b => Fld.elemOk_iff.mpr ⟨rfl, fun v hv => List.mem_singleton.mp hv ▸ Nat.mod_lt _ hpos⟩
  | .quad f β g, hpos, a, b => by
    have hmul := Fld.mul_ok_of_lists (f := f) hpos
    have hadd := fun u v : Elem => Fld.add_ok_of_ok (f := f) (a := u) (b := v) hpos
    have hfst := hadd _ _ (hmul (coeff f.degree 0 a) (coeff f.degree 0 b))
      (hmul β (f.mul (coeff f.degree 1 a) (coeff f.degree 1 b)))
    exact (Fld.elemOk_quad (Fld.length_of_ok hfst)).mpr ⟨hfst, hadd _ _ (hmul _ _) (hmul _ _)⟩
  | .cubic f β g1 g2, hpos, a, b => by
    have hmul := Fld.mul_ok_of_lists (f := f) hpos
    have hadd := fun u v : Elem => Fld.add_ok_of_ok (f := f) (a := u) (b := v) hpos
    have hfst := hadd _ _ (hmul (coeff f.degree 0 a) (coeff f.degree 0 b))
      (hmul β (f.add (f.mul (coeff f.degree 1 a) (coeff f.degree 2 b)) (f.mul (coeff f.degree 2 a) (coeff f.degree 1 b))))
    have hsnd := hadd _ _ (hadd _ _ (hmul (coeff f.degree 0 a) (coeff f.degree 1 b))
      (hmul (coeff f.degree 1 a) (coeff f.degree 0 b))) (hmul β (f.mul (coeff f.degree 2 a) (coeff f.degree 2 b)))
    exact (Fld.elemOk_cubic (Fld.length_of_ok hfst) (Fld.length_of_ok hsnd)).mpr
      ⟨hfst, hsnd, hadd _ _ (hadd _ _ (hmul _ _) (hmul _ _)) (hmul _ _)⟩

theorem Fld.degree_le_length_embed (f : Fld) (v : Elem) : f.degree ≤ (f.embed v).length := by
  simp only [Fld.embed, List.length_append, List.length_replicate]
  omega

section
variable {g : Fld} (hg : g.wf = true) (ty : Twist) {w : Elem}
include hg

/-- The value of a line is an element, whatever the line and the pair hold. -/
theorem evalLine_ok (l : Line) (x y : Elem) : g.elemOk (evalLine g ty w l x y) = true := by
  have hpos := Fld.char_pos_of_wf hg
  have hmul := Fld.mul_ok_of_lists (f := g) hpos
  have hadd := fun u v : Elem => Fld.add_ok_of_ok (f := g) (a := u) (b := v) hpos
  cases ty with
  | typeD => exact hadd _ _ (hadd _ _ (hmul _ _) (hmul _ _)) (hmul _ _)
  | noTwist => exact hadd _ _ (hadd _ _ (hmul _ _) (hmul _ _)) (hmul _ _)
  | typeM =>
    refine hadd _ _ (Fld.add_ok_of_length hpos (g.degree_le_length_embed _) ?_) (hmul _ _)
    exact Fld.length_of_ok (hmul _ _)

theorem Fld.prodOf_two (hw : g.elemOk w = true) : g.prodOf 2 w = g.sqr w := by
  obtain ⟨R, _, ⟨m⟩⟩ := Fld.exists_model hg
  obtain ⟨x, rfl⟩ := m.exists_of_ok hw
  rw [m.prodOf, m.sqr]

theorem Fld.prodOf_three (hw : g.elemOk w = true) : g.prodOf 3 w = g.mul (g.sqr w) w := by
  obtain ⟨R, _, ⟨m⟩⟩ := Fld.exists_model hg
  obtain ⟨x, rfl⟩ := m.exists_of_ok hw
  rw [m.prodOf, m.sqr, m.mul, pow_succ]

theorem evalLine_eq_valueAt (hw : g.elemOk w = true) (l : Line) (x y : Elem) :
    evalLine g ty w l x y = l.valueAt g ty w x y := by
  cases ty <;> simp only [evalLine, Line.valueAt, Fld.prodOf_two hg hw, Fld.prodOf_three hg hw]

end

/-! ### The accumulators after each bit (R326) -/

/-- The value of line `idx` of a pair. -/
def PairPre.lineValue (g : Fld) (ty : Twist) (w : Elem) (idx : Nat) (p : PairPre) : Elem :=
  evalLine g ty w (p.lines.getD idx { c0 := [], c1 := [], c3 := [] }) p.xP p.yP

theorem mulLines_eq_foldl {g : Fld} {ty : Twist} {w : Elem} {idx : Nat} : ∀ (pairs : List PairPre) (a : Elem),
    mulLines g ty w idx pairs a = pairs.foldl (fun acc p => g.mul acc (p.lineValue g ty w idx)) a
  | [], _ => rfl
  | _ :: rest, _ => mulLines_eq_foldl rest _

/-- The indices whose bit is set above `i` and below `n`. -/
theorem length_filter_above (b : Nat → Bool) (i : Nat) : ∀ n : Nat,
    ((List.range n).filter (fun j => decide (i < j) && b j)).length =
      ((List.range n).filter (fun j => decide (i + 1 < j) && b j)).length +
        if i + 1 < n ∧ b (i + 1) then 1 else 0
  | 0 => rfl
  | n + 1 => by
    rw [List.range_succ, List.filter_append, List.filter_append, List.length_append, List.length_append,
      length_filter_above b i n]
    rcases lt_trichotomy (i + 1) n with h | rfl | h
    · have hi : i < n := by omega
      cases hb : b n
      · simp [h, hb, Nat.lt_succ_of_lt h]
      · simp [hi, h, hb, Nat.lt_succ_of_lt h, Nat.add_right_comm]
    · by_cases hb : b (i + 1) <;> simp [hb]
    · simp [show ¬ i < n by omega, show ¬ i + 1 < n by omega]

theorem lineIndex_top {loop n : Nat} (h : bitLength loop - 1 = n + 1) : lineIndex loop n = 0 := by
  have hempty : (List.range (n + 1)).filter (fun j => decide (n < j) && loop.testBit j) = [] := by
    refine List.filter_eq_nil_iff.mpr fun j hj => ?_
    have := List.mem_range.mp hj
    simp [show ¬ n < j by omega]
  simp only [lineIndex, h, hempty, List.length_nil]
  omega

theorem lineIndex_succ {loop n : Nat} (h : n + 1 < bitLength loop - 1) :
    lineIndex loop n = lineIndex loop (n + 1) + if loop.testBit (n + 1) then 2 else 1 := by
  simp only [lineIndex, length_filter_above loop.testBit n, h, true_and]
  split <;> omega

section
variable {g : Fld} {ty : Twist} {w : Elem} {pairs : List PairPre} {loop : Nat}

/-- The accumulator after bit `n`, from the accumulator before it. -/
def millerBit (g : Fld) (ty : Twist) (w : Elem) (pairs : List PairPre) (loop n : Nat) (idx : Nat) (a : Elem) : Elem :=
  let doubled := mulLines g ty w idx pairs (g.mul a a)
  if loop.testBit n then mulLines g ty w (idx + 1) pairs doubled else doubled

theorem millerSteps_succ (n : Nat) (a : Elem) (idx : Nat) :
    millerSteps g ty w pairs loop (n + 1) a idx =
      millerSteps g ty w pairs loop n (millerBit g ty w pairs loop n idx a)
        (idx + if loop.testBit n then 2 else 1) := by
  rw [millerSteps, millerBit]
  split <;> rfl

/-- The steps go through one accumulator for each bit, each made with the lines of that bit. -/
theorem millerSteps_accumulators : ∀ (n : Nat) (a : Elem) (idx : Nat), n ≤ bitLength loop - 1 →
    (∀ k, n = k + 1 → idx = lineIndex loop k) → ∃ f : Nat → Elem, f n = a ∧
      f 0 = millerSteps g ty w pairs loop n a idx ∧
      ∀ i, i < n → f i = millerBit g ty w pairs loop i (lineIndex loop i) (f (i + 1))
  | 0, a, idx, _, _ => ⟨fun _ => a, rfl, rfl, fun i hi => absurd hi (Nat.not_lt_zero i)⟩
  | n + 1, a, idx, hn, hidx => by
    obtain rfl := hidx n rfl
    obtain ⟨f, hfn, hf0, hstep⟩ := millerSteps_accumulators n (millerBit g ty w pairs loop n (lineIndex loop n) a)
      (lineIndex loop n + if loop.testBit n then 2 else 1) (by omega) fun k hk => by
        subst hk
        exact (lineIndex_succ (by omega)).symm
    refine ⟨Function.update f (n + 1) a, Function.update_self .., ?_, fun i hi => ?_⟩
    · rw [millerSteps_succ, ← hf0, Function.update_of_ne (by omega)]
    · rw [Function.update_of_ne (by omega)]
      rcases Nat.lt_succ_iff_lt_or_eq.mp hi with hlt | rfl
      · rw [Function.update_of_ne (by omega), hstep i hlt]
      · rw [Function.update_self, hfn]

theorem millerBit_ok (hg : g.wf = true) {n idx : Nat} {a : Elem} : 
    g.elemOk (millerBit g ty w pairs loop n idx a) = true := by
  have hfold : ∀ (idx : Nat) (ps : List PairPre) (a : Elem), g.elemOk a = true →
      g.elemOk (mulLines g ty w idx ps a) = true := by
    intro idx ps
    induction ps with
    | nil => exact fun a ha => ha
    | cons p rest ih => exact fun a _ => ih _ (Fld.mul_ok_of_lists (Fld.char_pos_of_wf hg) _ _)
  have hsq := hfold idx pairs (g.mul a a) (Fld.mul_ok_of_lists (Fld.char_pos_of_wf hg) _ _)
  rw [millerBit]
  split
  · exact hfold _ _ _ hsq
  · exact hsq

theorem millerSteps_ok (hg : g.wf = true) : ∀ (n : Nat) {a : Elem} {idx : Nat}, g.elemOk a = true →
    g.elemOk (millerSteps g ty w pairs loop n a idx) = true
  | 0, _, _, ha => ha
  | n + 1, a, idx, _ => by
    rw [millerSteps_succ]
    exact millerSteps_ok hg n (millerBit_ok hg)

/-- The accumulator of the whole loop before its sign step. -/
def millerValue (g : Fld) (ty : Twist) (w : Elem) (pairs : List PairPre) (loop : Nat) : Elem :=
  millerSteps g ty w pairs loop (bitLength loop - 1) g.one 0

theorem millerValue_ok (hg : g.wf = true) : g.elemOk (millerValue g ty w pairs loop) = true :=
  millerSteps_ok hg _ (Fld.one_ok hg)

theorem millerAccumulates_millerValue (hg : g.wf = true) (hw : g.elemOk w = true) :
    MillerAccumulates g ty w loop pairs (millerValue g ty w pairs loop) := by
  obtain ⟨f, htop, hzero, hstep⟩ := millerSteps_accumulators (g := g) (ty := ty) (w := w) (pairs := pairs) (loop := loop)
    (bitLength loop - 1) g.one 0 le_rfl fun k hk => (lineIndex_top hk).symm
  refine ⟨f, htop, hzero, fun i hi => ?_⟩
  rw [hstep i hi]
  simp only [millerBit, mulLines_eq_foldl, PairPre.lineValue, evalLine_eq_valueAt hg ty hw]

end

/-! ### The terminal inversion (R326) -/

section
variable {v : PairingView} {pairs : List PairPre}

/-- The accumulator of a configuration before its sign step. -/
def PairingView.accumulator (v : PairingView) (pairs : List PairPre) : Elem :=
  millerValue v.gt.fld v.g2.crv.twist v.prg.omega pairs v.prg.loop

theorem PairingView.accumulator_ok (hg : v.gt.fld.wf = true) : v.gt.fld.elemOk (v.accumulator pairs) = true :=
  millerValue_ok hg

theorem PairingView.miller_eq (hg : v.gt.fld.wf = true) : v.miller pairs =
    if v.prg.neg then
      if v.accumulator pairs = v.gt.fld.zero then none else some (v.gt.fld.invOrFree (v.accumulator pairs))
    else some (v.accumulator pairs) := by
  have hzero := isZeroElem_iff (Fld.length_of_ok (v.accumulator_ok (pairs := pairs) hg))
  change (if v.prg.neg then
    if isZeroElem (v.accumulator pairs) then none else some (v.gt.fld.invOrFree (v.accumulator pairs))
    else some (v.accumulator pairs)) = _
  simp only [hzero]

theorem PairingView.miller_ok (hg : v.gt.fld.wf = true) {m : Elem} (hm : v.miller pairs = some m) :
    v.gt.fld.elemOk m = true := by
  have hok := v.accumulator_ok (pairs := pairs) hg
  rw [PairingView.miller_eq hg] at hm
  split_ifs at hm with hneg hzero
  · exact Option.some.inj hm ▸ invOrFree_ok hg hok hzero
  · exact Option.some.inj hm ▸ hok

theorem PairingView.miller_ne_none (hneg : v.prg.neg = false) : v.miller pairs ≠ none := by
  simp [PairingView.miller, millerLoop, hneg]

end

theorem State.Inv.pairing_omega {s : State} {v : PairingView} (h : s.Inv) (hv : s.pairingOf = some v) :
    v.gt.fld.elemOk v.prg.omega = true := by
  have hsound := h.prg
  obtain ⟨hprg, -, -, -⟩ := State.pairingOf_parts hv
  simp only [State.pairingSound, hprg, hv, Bool.and_eq_true] at hsound
  obtain ⟨⟨⟨⟨-, homega⟩, -⟩, -⟩, -⟩ := hsound
  exact homega

end Sys2Proof.Machine
end

section
/-! The commands of the Miller loop and the final exponentiation: MLOOP, DMLOOP, FEXP and RPAIR (47_pairing.md sections 3
and 4). -/

namespace Sys2Proof.Machine

variable {s : State} {v : PairingView}

theorem State.Inv.gt_sound (h : s.Inv) (hv : s.pairingOf = some v) : v.gt.Sound :=
  h.field_sound (State.pairingOf_parts hv).2.2.2

theorem State.Inv.gt_wf (h : s.Inv) (hv : s.pairingOf = some v) : v.gt.fld.wf = true := (h.gt_sound hv).wf

theorem needPairing_faults (hnone : s.pairingOf = none) {i : Instr} {k : PairingView → Attempt State}
    (hi : exec i s = conclude i s (s.needPairing >>= k)) : Faults i s .invalidParameter :=
  faults_of_body hi (by
    rw [State.needPairing, hnone]
    rfl)

/-- The value of the loop, and when it is refused (R326). -/
theorem State.Inv.miller_spec (h : s.Inv) (hv : s.pairingOf = some v) (pairs : List PairPre) : ∃ f,
    MillerAccumulates v.gt.fld v.g2.crv.twist v.prg.omega v.prg.loop pairs f ∧
    (v.prg.neg = false → v.miller pairs = some f) ∧
    (v.prg.neg = true → f = v.gt.fld.zero → v.miller pairs = none) ∧
    (v.prg.neg = true → f ≠ v.gt.fld.zero → ∃ m, v.miller pairs = some m ∧
      (v.gt.ctx.m.Prime ∨ v.gt.fld.HasInverse f → v.gt.fld.mul f m = v.gt.fld.one)) := by
  have hg := h.gt_wf hv
  have hok := v.accumulator_ok (pairs := pairs) hg
  refine ⟨v.accumulator pairs, millerAccumulates_millerValue hg (h.pairing_omega hv), ?_⟩
  rw [PairingView.miller_eq hg]
  refine ⟨fun hneg => by simp [hneg], fun hneg hzero => by simp [hneg, hzero], fun hneg hne => ?_⟩
  refine ⟨v.gt.fld.invOrFree (v.accumulator pairs), by simp [hneg, hne], fun hor => ?_⟩
  exact (invOrFree_of_hasInverse hg hok hne (hasInverse_of_prime_or (h.gt_sound hv) hok hne hor)).2

/-! ### MLOOP and DMLOOP (R329, R330) -/

theorem State.Inv.writesGt (h : s.Inv) (hv : s.pairingOf = some v) {i : Instr} {rd : RegIx} {a : Elem}
    (hexec : exec i s = conclude i s (.ok (s.setElem v.gt rd.toNat a))) (hfit : rd.toNat + 1 * v.gt.k ≤ 64)
    (ha : v.gt.fld.elemOk a = true) : ∃ t, exec i s = .next t ∧ ElemResult s t v.gt rd.toNat a :=
  ⟨_, exec_of_body hexec rfl,
    elemResult_setElem h (State.pairingOf_parts hv).2.2.2 (by rwa [Nat.one_mul] at hfit) ha⟩

/-- What MLOOP and DMLOOP do once their slots are found. -/
def State.millerTail (s : State) (v : PairingView) (rd : RegIx) (pairs : List PairPre) : Attempt State := do
  raiseIf (runsPast rd.toNat v.gt.k) .illegalCommand
  let f ← orRaise (v.miller pairs) .invalidPairingInput
  .ok (s.setElem v.gt rd.toNat f)

theorem State.Inv.millerTail_spec (h : s.Inv) (hv : s.pairingOf = some v) {i : Instr} {rd : RegIx} {pairs : List PairPre}
    (hexec : exec i s = conclude i s (s.millerTail v rd pairs)) :
    (¬ OperandsFit v.gt [(rd, 1)] → Faults i s .illegalCommand) ∧
    (OperandsFit v.gt [(rd, 1)] →
      (v.miller pairs = none → Faults i s .invalidPairingInput) ∧
      (∀ m, v.miller pairs = some m → ∃ t, exec i s = .next t ∧ ElemResult s t v.gt rd.toNat m) ∧
      (v.prg.neg = false → v.miller pairs ≠ none)) := by
  have hpast := pastOf_iff v.gt rd 1
  rw [Nat.one_mul] at hpast
  rw [State.millerTail] at hexec
  refine ⟨fun hfit => faults_of_body hexec ?_, fun hfit => ?_⟩
  · rw [Bool.eq_true_of_not_eq_false (mt hpast.mp hfit)]
    rfl
  rw [hpast.mpr hfit] at hexec
  refine ⟨fun hnone => faults_of_body hexec ?_, fun m hm => ?_, PairingView.miller_ne_none⟩
  · rw [hnone]
    rfl
  · rw [hm] at hexec
    exact h.writesGt hv hexec (operandsFit_cons.mp hfit).1 (PairingView.miller_ok (h.gt_wf hv) hm)

section
variable {rd : RegIx} {s1 s2 s3 s4 : SlotIx} {p q : PairPre}

theorem exec_mloop (hv : s.pairingOf = some v) (hp : s.pairOf s1 s2 = some p) :
    exec (.mloop rd s1 s2) s = conclude (.mloop rd s1 s2) s (s.millerTail v rd [p]) := by
  change conclude _ s (orRaise s.pairingOf .invalidParameter >>= fun v => orRaise (s.pairOf s1 s2) .invalidParameter >>=
    fun p => s.millerTail v rd [p]) = _
  rw [hv, hp]
  rfl

theorem exec_dmloop (hv : s.pairingOf = some v) (hp : s.pairOf s1 s2 = some p) (hq : s.pairOf s3 s4 = some q) :
    exec (.dmloop rd s1 s2 s3 s4) s = conclude (.dmloop rd s1 s2 s3 s4) s (s.millerTail v rd [p, q]) := by
  change conclude _ s (orRaise s.pairingOf .invalidParameter >>= fun v => orRaise (s.pairOf s1 s2) .invalidParameter >>=
    fun p => orRaise (s.pairOf s3 s4) .invalidParameter >>= fun q => s.millerTail v rd [p, q]) = _
  rw [hv, hp, hq]
  rfl

theorem mloop_faults (hv : s.pairingOf = some v) (hp : s.pairOf s1 s2 = none) :
    Faults (.mloop rd s1 s2) s .invalidParameter := by
  refine faults_of_body (show exec _ s = conclude _ s (orRaise s.pairingOf .invalidParameter >>= fun v =>
    orRaise (s.pairOf s1 s2) .invalidParameter >>= fun p => s.millerTail v rd [p]) from rfl) ?_
  rw [hv, hp]
  rfl

theorem dmloop_faults (hv : s.pairingOf = some v) (h : s.pairOf s1 s2 = none ∨ s.pairOf s3 s4 = none) :
    Faults (.dmloop rd s1 s2 s3 s4) s .invalidParameter := by
  refine faults_of_body (show exec _ s = conclude _ s (orRaise s.pairingOf .invalidParameter >>= fun v =>
    orRaise (s.pairOf s1 s2) .invalidParameter >>= fun p => orRaise (s.pairOf s3 s4) .invalidParameter >>=
    fun q => s.millerTail v rd [p, q]) from rfl) ?_
  rw [hv]
  rcases hp : s.pairOf s1 s2 with _ | p
  · rfl
  · rw [h.resolve_left (by simp [hp])]
    rfl

end

/-! ### FEXP and RPAIR (R332, R333) -/

section
variable {rd rs1 rs2 : RegIx}

theorem exec_fexp (hv : s.pairingOf = some v) (hfit : OperandsFit v.gt [(rd, 1), (rs1, 1)])
    (htag : OperandsTagged s v.gt [(rs1, 1)]) : exec (.fexp rd rs1) s =
      conclude (.fexp rd rs1) s (.ok (s.setElem v.gt rd.toNat (v.gt.fld.pow (s.elemAt v.gt rs1.toNat) v.prg.e))) := by
  rw [exec_of_checks (i := .fexp rd rs1) (s := s) (past := fun v => runsPast rd.toNat v.gt.k || runsPast rs1.toNat v.gt.k)
    (k := fun v => s.needElem v.gt rs1.toNat >>= fun f => .ok (s.setElem v.gt rd.toNat (v.gt.fld.pow f v.prg.e)))
    rfl hv ((past2_iff v.gt rd rs1).mpr hfit), State.needElem_ok (tagged_one_iff.mp htag)]
  rfl

theorem fexp_checks : FieldChecks s (.fexp rd rs1) (s.pairingOf.map (·.gt)) [(rd, 1), (rs1, 1)] [(rs1, 1)] := by
  refine fieldChecks_of_body rfl (fun v => past2_iff v.gt rd rs1) fun v hv => ?_
  rw [State.needElem_error (mt tagged_one_iff.mpr hv)]
  rfl

/-- The operands of RPAIR lie in the register file. -/
def RpairFits (v : PairingView) (rd rs1 rs2 : RegIx) : Prop :=
  OperandsFit v.gt [(rd, 1)] ∧ OperandsFit v.g1.fv [(rs1, 3)] ∧ OperandsFit v.g2.fv [(rs2, 3)]

/-- What RPAIR does with its two points. -/
def State.rpairTail (s : State) (v : PairingView) (rd : RegIx) (p q : JPoint) : Attempt State := do
  let pre1 ← orRaise (precomputeG1 v.g1.fv.fld v.g1.crv.a v.g1.crv.b p) .invalidPairingInput
  let lines ← orRaise (precomputeG2 v.g2.fv.fld v.g2.crv.a v.g2.crv.b v.prg.loop q) .invalidPairingInput
  let f ← orRaise (v.miller [{ xP := pre1.1, yP := pre1.2, lines := lines }]) .invalidPairingInput
  .ok (s.setElem v.gt rd.toNat (v.gt.fld.pow f v.prg.e))

theorem exec_rpair_body (hv : s.pairingOf = some v) : exec (.rpair rd rs1 rs2) s = conclude (.rpair rd rs1 rs2) s
    (raiseIf (runsPast rd.toNat v.gt.k || runsPast rs1.toNat (3 * v.g1.fv.k) || runsPast rs2.toNat (3 * v.g2.fv.k))
        .illegalCommand >>= fun _ =>
      s.needPoint v.g1.fv rs1.toNat >>= fun p => s.needPoint v.g2.fv rs2.toNat >>= fun q => s.rpairTail v rd p q) := by
  change conclude _ s (orRaise s.pairingOf .invalidParameter >>= fun v => _) = _
  rw [hv]
  rfl

theorem rpairPast_iff : (runsPast rd.toNat v.gt.k || runsPast rs1.toNat (3 * v.g1.fv.k) ||
    runsPast rs2.toNat (3 * v.g2.fv.k)) = false ↔ RpairFits v rd rs1 rs2 := by
  have hpast := pastOf_iff v.gt rd 1
  rw [Nat.one_mul] at hpast
  rw [Bool.or_eq_false_iff, Bool.or_eq_false_iff, hpast, pastOf_iff, pastOf_iff, and_assoc, RpairFits]

/-- The body of RPAIR once its operands lie in the register file. -/
theorem exec_rpair_fits (hv : s.pairingOf = some v) (hfit : RpairFits v rd rs1 rs2) :
    exec (.rpair rd rs1 rs2) s = conclude (.rpair rd rs1 rs2) s (s.needPoint v.g1.fv rs1.toNat >>= fun p =>
      s.needPoint v.g2.fv rs2.toNat >>= fun q => s.rpairTail v rd p q) := by
  rw [exec_rpair_body hv, rpairPast_iff.mpr hfit]
  rfl

theorem exec_rpair (hv : s.pairingOf = some v) (hfit : RpairFits v rd rs1 rs2)
    (htag1 : s.tagged v.g1.fv rs1.toNat (3 * v.g1.fv.k) = true) (htag2 : s.tagged v.g2.fv rs2.toNat (3 * v.g2.fv.k) = true) :
    exec (.rpair rd rs1 rs2) s = conclude (.rpair rd rs1 rs2) s
      (s.rpairTail v rd (s.pointAt v.g1.fv rs1.toNat) (s.pointAt v.g2.fv rs2.toNat)) := by
  rw [exec_rpair_fits hv hfit, State.needPoint_ok htag1, State.needPoint_ok htag2]
  rfl

theorem rpair_illegal (hv : s.pairingOf = some v) (hfit : ¬ RpairFits v rd rs1 rs2) :
    Faults (.rpair rd rs1 rs2) s .illegalCommand := by
  refine faults_of_body (exec_rpair_body hv) ?_
  rw [Bool.eq_true_of_not_eq_false (mt rpairPast_iff.mp hfit)]
  rfl

theorem rpair_incompatible (hv : s.pairingOf = some v) (hfit : RpairFits v rd rs1 rs2)
    (htag : ¬ (s.tagged v.g1.fv rs1.toNat (3 * v.g1.fv.k) = true ∧ s.tagged v.g2.fv rs2.toNat (3 * v.g2.fv.k) = true)) :
    Faults (.rpair rd rs1 rs2) s .incompatibleContext := by
  refine faults_of_body (exec_rpair_fits hv hfit) ?_
  by_cases htag1 : s.tagged v.g1.fv rs1.toNat (3 * v.g1.fv.k) = true
  · rw [State.needPoint_ok htag1, State.needPoint_error fun htag2 => htag ⟨htag1, htag2⟩]
    rfl
  · rw [State.needPoint_error htag1]
    rfl

section
variable {p q : JPoint} {x y : Elem} {lines : List Line}

theorem rpairTail_refused (h : precomputeG1 v.g1.fv.fld v.g1.crv.a v.g1.crv.b p = none ∨
    precomputeG2 v.g2.fv.fld v.g2.crv.a v.g2.crv.b v.prg.loop q = none) :
    s.rpairTail v rd p q = .error (.kind .invalidPairingInput) := by
  rw [State.rpairTail]
  rcases h1 : precomputeG1 v.g1.fv.fld v.g1.crv.a v.g1.crv.b p with _ | pre1
  · rfl
  · rw [h.resolve_left (by simp [h1])]
    rfl

theorem rpairTail_eq (h1 : precomputeG1 v.g1.fv.fld v.g1.crv.a v.g1.crv.b p = some (x, y))
    (h2 : precomputeG2 v.g2.fv.fld v.g2.crv.a v.g2.crv.b v.prg.loop q = some lines) :
    s.rpairTail v rd p q = (orRaise (v.miller [{ xP := x, yP := y, lines := lines }]) .invalidPairingInput >>= fun f =>
      .ok (s.setElem v.gt rd.toNat (v.gt.fld.pow f v.prg.e))) := by
  rw [State.rpairTail, h1, h2]
  rfl

end

/-- RPAIR writes the power E of the Miller value of its points. -/
theorem State.Inv.rpair_result (h : s.Inv) (hv : s.pairingOf = some v) (hfit : RpairFits v rd rs1 rs2)
    (htag1 : s.tagged v.g1.fv rs1.toNat (3 * v.g1.fv.k) = true) (htag2 : s.tagged v.g2.fv rs2.toNat (3 * v.g2.fv.k) = true)
    {x y m : Elem} {lines : List Line}
    (h1 : precomputeG1 v.g1.fv.fld v.g1.crv.a v.g1.crv.b (s.pointAt v.g1.fv rs1.toNat) = some (x, y))
    (h2 : precomputeG2 v.g2.fv.fld v.g2.crv.a v.g2.crv.b v.prg.loop (s.pointAt v.g2.fv rs2.toNat) = some lines)
    (hm : v.miller [{ xP := x, yP := y, lines := lines }] = some m) :
    ∃ t, exec (.rpair rd rs1 rs2) s = .next t ∧ ElemResult s t v.gt rd.toNat (v.gt.fld.pow m v.prg.e) := by
  have hexec := exec_rpair hv hfit htag1 htag2
  rw [rpairTail_eq h1 h2, hm] at hexec
  have hg := h.gt_wf hv
  exact h.writesGt hv hexec (operandsFit_cons.mp hfit.1).1 (Fld.pow_ok hg (PairingView.miller_ok hg hm) _)

end

/-- Settles O55. -/
theorem pairingCommands : Obligations.PairingCommands := by
  intro s h rd rs1 rs2 s1 s2 s3 s4
  refine ⟨fun hnone => ⟨needPairing_faults hnone rfl, needPairing_faults hnone rfl, needPairing_faults hnone rfl⟩,
    fexp_checks, fun v hv => ?_⟩
  have hg := h.gt_wf hv
  obtain ⟨-, -, -, hf⟩ := State.pairingOf_parts hv
  refine ⟨h.miller_spec hv, fun hp => ⟨mloop_faults hv hp, dmloop_faults hv (.inl hp)⟩,
    fun hq => dmloop_faults hv (.inr hq), fun p hp => ?_, fun hfit htag => ?_,
    rpair_illegal hv, fun hfit htag => ?_, fun hfit ⟨htag1, htag2⟩ => ?_⟩
  · obtain ⟨hillegal, hresult⟩ := h.millerTail_spec hv (exec_mloop (rd := rd) hv hp)
    exact ⟨hillegal, hresult, fun q hq => h.millerTail_spec hv (exec_dmloop hv hp hq)⟩
  · obtain ⟨hd, hs⟩ := operandsFit_cons.mp hfit
    have hok := h.elemAt_ok hf (by simpa using (operandsFit_cons.mp hs).1) (State.tagged_iff.mp (by simpa using tagged_one_iff.mp htag))
    rw [← Fld.pow_eq_prodOf hg hok]
    exact h.writesGt hv (exec_fexp hv hfit htag) hd (Fld.pow_ok hg hok _)
  · exact rpair_incompatible hv hfit fun ⟨htag1, htag2⟩ =>
      htag ⟨tagged_one_iff.mpr htag1, tagged_one_iff.mpr htag2⟩
  have htag1 := tagged_one_iff.mp htag1
  have htag2 := tagged_one_iff.mp htag2
  have hexec := exec_rpair (rd := rd) hv hfit htag1 htag2
  refine ⟨fun hbad => faults_of_body hexec (rpairTail_refused hbad), fun x y lines h1 h2 => ⟨fun hnone => ?_, fun m hm => ?_⟩⟩
  · rw [rpairTail_eq h1 h2, hnone] at hexec
    exact faults_of_body hexec rfl
  · rw [← Fld.pow_eq_prodOf hg (PairingView.miller_ok hg hm)]
    exact h.rpair_result hv hfit htag1 htag2 h1 h2 hm

end Sys2Proof.Machine
end

section
/-! RPAIR against the sequence of commands it stands for, and the product law of the Miller loop (47_pairing.md sections 3
and 4). -/

namespace Sys2Proof.Machine

variable {s t : State} {v : PairingView}

/-! ### The sequence PRECG1, PRECG2, MLOOP, FEXP (R333) -/

/-- A command that leaves the engine running has completed. -/
theorem completes_of_run {i : Instr} {a : Attempt State} (h : conclude i s a = .next t) (hrun : t.run = .run) :
    ∃ u, a = .ok u ∧ t = s.next u := by
  rcases faulted_or_ok_of_conclude h with ⟨k, info, rfl⟩ | hok
  · cases hrun
  · exact hok

theorem precg1_completes {n : SlotIx} {rs1 : RegIx} (h : exec (.precg1 n rs1) s = .next t) (hrun : t.run = .run) :
    ∃ (v : PairingView) (q : Elem × Elem), s.pairingOf = some v ∧ rs1.toNat + 3 * v.g1.fv.k ≤ 64 ∧
      s.tagged v.g1.fv rs1.toNat (3 * v.g1.fv.k) = true ∧
      precomputeG1 v.g1.fv.fld v.g1.crv.a v.g1.crv.b (s.pointAt v.g1.fv rs1.toNat) = some q ∧
      t = s.next (s.setPre n (.g1 q.1 q.2)) := by
  obtain ⟨u, hu, rfl⟩ := completes_of_run h hrun
  simp only [Attempt.bind_eq_ok, raiseIf_eq_ok, runsPast_eq_false, exists_const, State.needPairing_eq_ok,
    State.needPoint_eq_ok, orRaise_eq_ok, Except.ok.injEq] at hu
  obtain ⟨v, hv, hfit, _, ⟨htag, rfl⟩, q, hq, rfl⟩ := hu
  exact ⟨v, q, hv, hfit, htag, hq, rfl⟩

theorem precg2_completes {n : SlotIx} {rs1 : RegIx} (h : exec (.precg2 n rs1) s = .next t) (hrun : t.run = .run) :
    ∃ (v : PairingView) (lines : List Line), s.pairingOf = some v ∧ rs1.toNat + 3 * v.g2.fv.k ≤ 64 ∧
      s.tagged v.g2.fv rs1.toNat (3 * v.g2.fv.k) = true ∧
      precomputeG2 v.g2.fv.fld v.g2.crv.a v.g2.crv.b v.prg.loop (s.pointAt v.g2.fv rs1.toNat) = some lines ∧
      t = s.next (s.setPre n (.g2 lines)) := by
  obtain ⟨u, hu, rfl⟩ := completes_of_run h hrun
  simp only [Attempt.bind_eq_ok, raiseIf_eq_ok, runsPast_eq_false, exists_const, State.needPairing_eq_ok,
    State.needPoint_eq_ok, orRaise_eq_ok, Except.ok.injEq] at hu
  obtain ⟨v, hv, hfit, _, ⟨htag, rfl⟩, lines, hlines, rfl⟩ := hu
  exact ⟨v, lines, hv, hfit, htag, hlines, rfl⟩

theorem mloop_completes {rd : RegIx} {a b : SlotIx} (h : exec (.mloop rd a b) s = .next t) (hrun : t.run = .run) :
    ∃ (v : PairingView) (p : PairPre) (m : Elem), s.pairingOf = some v ∧ s.pairOf a b = some p ∧
      rd.toNat + v.gt.k ≤ 64 ∧ v.miller [p] = some m ∧ t = s.next (s.setElem v.gt rd.toNat m) := by
  obtain ⟨u, hu, rfl⟩ := completes_of_run h hrun
  simp only [Attempt.bind_eq_ok, raiseIf_eq_ok, runsPast_eq_false, exists_const, State.needPairing_eq_ok,
    orRaise_eq_ok, Except.ok.injEq] at hu
  obtain ⟨v, hv, p, hp, hfit, m, hm, rfl⟩ := hu
  exact ⟨v, p, m, hv, hp, hfit, hm, rfl⟩

theorem fexp_completes {rd rs1 : RegIx} (h : exec (.fexp rd rs1) s = .next t) (hrun : t.run = .run) :
    ∃ v : PairingView, s.pairingOf = some v ∧
      t = s.next (s.setElem v.gt rd.toNat (v.gt.fld.pow (s.elemAt v.gt rs1.toNat) v.prg.e)) := by
  obtain ⟨u, hu, rfl⟩ := completes_of_run h hrun
  simp only [Attempt.bind_eq_ok, raiseIf_eq_ok, exists_const, State.needPairing_eq_ok, State.needElem_eq_ok,
    Except.ok.injEq] at hu
  obtain ⟨v, hv, -, _, ⟨-, rfl⟩, rfl⟩ := hu
  exact ⟨v, hv, rfl⟩

theorem State.pairingOf_next_setPre {u : State} {n : SlotIx} {e : Pre} : (u.next (s.setPre n e)).pairingOf = s.pairingOf :=
  State.pairingOf_congr rfl rfl rfl rfl

theorem State.pairingOf_next_setElem {u : State} {f : FieldView} {n : Nat} {a : Elem} :
    (u.next (s.setElem f n a)).pairingOf = s.pairingOf :=
  State.pairingOf_congr (s.setElem_ctx f n a) (s.setElem_twr f n a) (s.setElem_crv f n a) (s.setElem_prg f n a)

theorem State.run_next_setElem {u : State} {f : FieldView} {n : Nat} {a : Elem} :
    (u.next (s.setElem f n a)).run = s.run := s.setElem_run f n a

/-- The slots that PRECG1 and PRECG2 have filled, as a pair. -/
theorem State.pairOf_filled {u1 u2 : State} {a b : SlotIx} (hab : a ≠ b) {x y : Elem} {lines : List Line} :
    (u2.next ((u1.next (s.setPre a (.g1 x y))).setPre b (.g2 lines))).pairOf a b =
      some { xP := x, yP := y, lines := lines } := by
  have h1 : (u2.next ((u1.next (s.setPre a (.g1 x y))).setPre b (.g2 lines))).preAt a = some (.g1 x y) :=
    (State.preAt_setPre ..).trans ((if_neg hab).trans ((State.preAt_setPre ..).trans (if_pos rfl)))
  have h2 : (u2.next ((u1.next (s.setPre a (.g1 x y))).setPre b (.g2 lines))).preAt b = some (.g2 lines) :=
    (State.preAt_setPre ..).trans (if_pos rfl)
  simp only [State.pairOf, h1, h2]

/-! What a command reads from the registers depends on them and on the parameters alone. -/

theorem State.tagged_of_regs (hx : t.x = s.x) (f : FieldView) (n c : Nat) : t.tagged f n c = s.tagged f n c := by
  simp only [State.tagged, State.regRange, State.regAt, hx]

theorem State.pointAt_of_regs (hx : t.x = s.x) (hp : t.par = s.par) (f : FieldView) (n : Nat) : t.pointAt f n = s.pointAt f n := by
  have helem : ∀ n, t.elemAt f n = s.elemAt f n := fun n =>
    State.elemAt_congr hp fun j _ => by simp only [State.regAt, hx]
  simp only [State.pointAt, helem]

/-- A command that writes `F a` over the element `a` written before it leaves the registers as if `F a` was written at
once. -/
theorem State.Inv.regAt_of_written (h : s.Inv) {x : Tier} {f : FieldView} (hf : s.fieldOf x = some f) {u : State}
    (hu : u.par = s.par) {n k : Nat} {a : Elem} {F : Elem → Elem} (hn : n + f.k ≤ 64) (ha : f.fld.elemOk a = true)
    (hk : n ≤ k ∧ k < n + f.k) :
    ((u.next (u.setElem f n a)).setElem f n (F ((u.next (u.setElem f n a)).elemAt f n))).regAt k =
      (s.setElem f n (F a)).regAt k := by
  have hpar : (u.next (u.setElem f n a)).par = s.par := (u.setElem_par f n a).trans hu
  rw [State.next_elemAt, h.elemAt_written hf hu hn ha, State.regAt_setElem, State.regAt_setElem, if_pos (by omega),
    if_pos (by omega), State.repOf, State.repOf, hpar]

/-- Settles O56: the four commands fill the slots and the registers with what RPAIR computes from the points at once. -/
theorem reducedPairingIsTheSequence : Obligations.ReducedPairingIsTheSequence := by
  intro s t1 t2 t3 t4 rd rs1 rs2 a b h _ hab h1 h2 h3 h4 hrun4
  obtain ⟨v4, hv4, rfl⟩ := fexp_completes h4 hrun4
  rw [State.run_next_setElem] at hrun4
  obtain ⟨v3, p, m, hv3, hp, hfit, hm, rfl⟩ := mloop_completes h3 hrun4
  rw [State.run_next_setElem] at hrun4
  obtain ⟨v2, lines, hv2, hfit2, htag2, hlines, ht2⟩ := precg2_completes h2 hrun4
  obtain ⟨v, q, hv, hfit1, htag1, hq, ht1⟩ := precg1_completes h1 (by rwa [ht2] at hrun4)
  have hpar : t2.par = s.par := by rw [ht2, ht1]; rfl
  have hregs : t1.x = s.x ∧ t1.par = s.par := by rw [ht1]; exact ⟨rfl, rfl⟩
  rw [State.pairingOf_next_setElem, hv3, Option.some.injEq] at hv4
  rw [ht2, State.pairingOf_next_setPre, hv2, Option.some.injEq] at hv3
  rw [ht1, State.pairingOf_next_setPre, hv, Option.some.injEq] at hv2
  subst hv4 hv3 hv2
  rw [ht2, ht1, State.pairOf_filled hab, Option.some.injEq] at hp
  subst hp
  rw [State.tagged_of_regs hregs.1] at htag2
  rw [State.pointAt_of_regs hregs.1 hregs.2] at hlines
  have hg := h.gt_wf hv
  have hf := (State.pairingOf_parts hv).2.2.2
  have hfits : RpairFits v rd rs1 rs2 := by simp [RpairFits, OperandsFit, hfit, hfit1, hfit2]
  have hmok := PairingView.miller_ok hg hm
  have hexec := exec_rpair hv hfits htag1 htag2
  rw [rpairTail_eq hq hlines, hm] at hexec
  obtain ⟨honly, -, -⟩ := elemResult_setElem h hf (rd := rd.toNat) hfit (Fld.pow_ok hg hmok v.prg.e)
  have hdegree : s.gtDegree = v.gt.k := by simp only [State.gtDegree, hv]
  refine ⟨_, exec_of_body hexec rfl, hdegree ▸ honly, fun j hj => ?_⟩
  rw [State.next_regAt, State.next_regAt]
  exact (h.regAt_of_written hf hpar hfit hmok (F := fun f => v.gt.fld.pow f v.prg.e) (by omega)).symm

/-! ### The product law (R326) -/

section
variable {g : Fld} (hg : g.wf = true) {ty : Twist} {w : Elem}
include hg

theorem Fld.mul_mul_mul_comm {a b c d : Elem} (ha : g.elemOk a = true) (hb : g.elemOk b = true)
    (hc : g.elemOk c = true) (hd : g.elemOk d = true) :
    g.mul (g.mul a b) (g.mul c d) = g.mul (g.mul a c) (g.mul b d) := by
  obtain ⟨R, _, ⟨m⟩⟩ := Fld.exists_model hg
  obtain ⟨a, rfl⟩ := m.exists_of_ok ha
  obtain ⟨b, rfl⟩ := m.exists_of_ok hb
  obtain ⟨c, rfl⟩ := m.exists_of_ok hc
  obtain ⟨d, rfl⟩ := m.exists_of_ok hd
  simp only [m.mul, m.val_inj]
  ring

theorem Fld.mul_assoc_of_ok {a b c : Elem} (ha : g.elemOk a = true) (hb : g.elemOk b = true) (hc : g.elemOk c = true) :
    g.mul (g.mul a b) c = g.mul a (g.mul b c) := by
  obtain ⟨R, _, ⟨m⟩⟩ := Fld.exists_model hg
  obtain ⟨a, rfl⟩ := m.exists_of_ok ha
  obtain ⟨b, rfl⟩ := m.exists_of_ok hb
  obtain ⟨c, rfl⟩ := m.exists_of_ok hc
  simp only [m.mul, m.val_inj]
  ring

theorem Fld.one_mul_one : g.mul g.one g.one = g.one := by
  obtain ⟨R, _, ⟨m⟩⟩ := Fld.exists_model hg
  rw [m.one, m.mul, one_mul]

variable {p q : PairPre}

theorem mulLines_pair {idx : Nat} {a b : Elem} (ha : g.elemOk a = true) (hb : g.elemOk b = true) :
    mulLines g ty w idx [p, q] (g.mul a b) = g.mul (mulLines g ty w idx [p] a) (mulLines g ty w idx [q] b) := by
  have hp : g.elemOk (p.lineValue g ty w idx) = true := evalLine_ok hg ..
  have hq : g.elemOk (q.lineValue g ty w idx) = true := evalLine_ok hg ..
  change g.mul (g.mul (g.mul a b) (p.lineValue g ty w idx)) (q.lineValue g ty w idx) =
    g.mul (g.mul a (p.lineValue g ty w idx)) (g.mul b (q.lineValue g ty w idx))
  rw [Fld.mul_assoc_of_ok hg (Fld.mul_ok hg ha hb) hp hq, Fld.mul_mul_mul_comm hg ha hb hp hq]

theorem mulLines_one_ok {idx : Nat} {a : Elem} : g.elemOk (mulLines g ty w idx [p] a) = true :=
  Fld.mul_ok_of_lists (Fld.char_pos_of_wf hg) _ _

theorem millerBit_pair {loop n idx : Nat} {a b : Elem} (ha : g.elemOk a = true) (hb : g.elemOk b = true) :
    millerBit g ty w [p, q] loop n idx (g.mul a b) =
      g.mul (millerBit g ty w [p] loop n idx a) (millerBit g ty w [q] loop n idx b) := by
  have hdoubled : mulLines g ty w idx [p, q] (g.mul (g.mul a b) (g.mul a b)) =
      g.mul (mulLines g ty w idx [p] (g.mul a a)) (mulLines g ty w idx [q] (g.mul b b)) := by
    rw [Fld.mul_mul_mul_comm hg ha hb ha hb, mulLines_pair hg (Fld.mul_ok hg ha ha) (Fld.mul_ok hg hb hb)]
  simp only [millerBit, hdoubled]
  split
  · exact mulLines_pair hg (mulLines_one_ok hg) (mulLines_one_ok hg)
  · rfl

theorem millerSteps_pair {loop : Nat} : ∀ (n : Nat) {idx : Nat} {a b : Elem}, g.elemOk a = true → g.elemOk b = true →
    millerSteps g ty w [p, q] loop n (g.mul a b) idx =
      g.mul (millerSteps g ty w [p] loop n a idx) (millerSteps g ty w [q] loop n b idx)
  | 0, _, _, _, _, _ => rfl
  | n + 1, idx, a, b, ha, hb => by
    simp only [millerSteps_succ]
    rw [millerBit_pair hg ha hb, millerSteps_pair n (millerBit_ok hg) (millerBit_ok hg)]

end

theorem PairingView.accumulator_pair (hg : v.gt.fld.wf = true) (p q : PairPre) :
    v.accumulator [p, q] = v.gt.fld.mul (v.accumulator [p]) (v.accumulator [q]) := by
  have hone := Fld.one_ok hg
  have h := millerSteps_pair hg (ty := v.g2.crv.twist) (w := v.prg.omega) (p := p) (q := q) (loop := v.prg.loop)
    (bitLength v.prg.loop - 1) (idx := 0) hone hone
  rwa [Fld.one_mul_one hg] at h

/-- An inverse is the only one. -/
theorem invOrFree_eq_of_mul {g : Fld} (hg : g.wf = true) {a b : Elem} (ha : g.elemOk a = true) (hne : a ≠ g.zero)
    (hb : g.elemOk b = true) (hab : g.mul a b = g.one) : g.invOrFree a = b := by
  obtain ⟨hok, hone⟩ := invOrFree_of_hasInverse hg ha hne ⟨b, hb, hab⟩
  obtain ⟨R, _, ⟨m⟩⟩ := Fld.exists_model hg
  obtain ⟨x, rfl⟩ := m.exists_of_ok ha
  obtain ⟨y, hy⟩ := m.exists_of_ok hok
  obtain ⟨z, rfl⟩ := m.exists_of_ok hb
  rw [← hy, m.mul, m.one, m.val_inj] at hone
  rw [m.mul, m.one, m.val_inj] at hab
  rw [← hy, m.val_inj]
  exact left_inv_eq_right_inv ((mul_comm y x).trans hone) hab

section
variable {f : FieldView} (hf : f.Sound) (hp : f.ctx.m.Prime)
include hf hp

theorem invOrFree_mul {a b : Elem} (ha : f.fld.elemOk a = true) (hb : f.fld.elemOk b = true) (hane : a ≠ f.fld.zero)
    (hbne : b ≠ f.fld.zero) : f.fld.mul a b ≠ f.fld.zero ∧
      f.fld.invOrFree (f.fld.mul a b) = f.fld.mul (f.fld.invOrFree a) (f.fld.invOrFree b) := by
  have hinv : ∀ {c : Elem}, f.fld.elemOk c = true → c ≠ f.fld.zero →
      f.fld.elemOk (f.fld.invOrFree c) = true ∧ f.fld.mul c (f.fld.invOrFree c) = f.fld.one := fun hc hcne =>
    invOrFree_of_hasInverse hf.wf hc hcne (hasInverse_of_prime_or hf hc hcne (.inl hp))
  obtain ⟨hu, hau⟩ := hinv ha hane
  obtain ⟨hv, hbv⟩ := hinv hb hbne
  have hab := Fld.mul_ok hf.wf ha hb
  have hprod : f.fld.mul (f.fld.mul a b) (f.fld.mul (f.fld.invOrFree a) (f.fld.invOrFree b)) = f.fld.one := by
    rw [Fld.mul_mul_mul_comm hf.wf ha hb hu hv, hau, hbv, Fld.one_mul_one hf.wf]
  have hne : f.fld.mul a b ≠ f.fld.zero := by
    intro hzero
    obtain ⟨R, _, ⟨m⟩⟩ := Fld.exists_model hf.wf
    have := m.nontrivial (one_lt_char_of_ne_zero hf.wf ha hane)
    obtain ⟨x, hx⟩ := m.exists_of_ok (Fld.mul_ok hf.wf hu hv)
    rw [hzero, ← hx, m.zero, m.mul, zero_mul, m.one, m.val_inj] at hprod
    exact zero_ne_one hprod
  exact ⟨hne, invOrFree_eq_of_mul hf.wf hab hne (Fld.mul_ok hf.wf hu hv) hprod⟩

end

/-- Settles O57: the steps of the loop distribute over the product of the accumulators, and so does the inverse. -/
theorem doubleLoopIsTheProduct : Obligations.DoubleLoopIsTheProduct := by
  intro s v p q a b h hv hor hp hq
  have hg := h.gt_wf hv
  have hpair := v.accumulator_pair hg p q
  rw [PairingView.miller_eq hg] at hp hq ⊢
  rw [hpair]
  by_cases hneg : v.prg.neg = true
  · rw [if_pos hneg, Option.ite_none_left_eq_some, Option.some.injEq] at hp hq
    obtain ⟨hpne, rfl⟩ := hp
    obtain ⟨hqne, rfl⟩ := hq
    obtain ⟨hne, hinv⟩ := invOrFree_mul (h.gt_sound hv) (hor.resolve_left (by simp [hneg])) (v.accumulator_ok hg)
      (v.accumulator_ok hg) hpne hqne
    rw [if_pos hneg, if_neg hne, hinv]
  · rw [if_neg hneg, Option.some.injEq] at hp hq
    rw [if_neg hneg, hp, hq]

end Sys2Proof.Machine
end

section
/-! The formulas of the curve commands against the group of the curve over a field (45_curve.md section 2): a Jacobian triple
stands for a point of Mathlib's group of nonsingular points, and doubling, addition and negation stand for the operations
of this group. -/

namespace Sys2Proof.Machine

open WeierstrassCurve.Affine

variable {F : Type} [Field F]

/-- The curve `y^2 = x^3 + a*x + b`. -/
def shortCurve (a b : F) : WeierstrassCurve.Affine F := { a₁ := 0, a₂ := 0, a₃ := 0, a₄ := a, a₆ := b }

/-- The triple has the affine coordinates (x, y) (R272). -/
def Jac.At (p : Jac F) (x y : F) : Prop := p.z ≠ 0 ∧ p.x = x * p.z ^ 2 ∧ p.y = y * p.z ^ 3

/-- The triple stands for a point of the curve: Z = 0 for the point at infinity, else the affine coordinates of the point
(R272, R273). -/
def Jac.Represents (a b : F) (p : Jac F) : (shortCurve a b).Point → Prop
  | .zero => p.z = 0
  | .some x y _ => p.At x y

section
variable {p q : Jac F} {x y x1 y1 x2 y2 : F}

/-- The tangent point, with the slope `l` of the tangent at (x, y). -/
theorem Jac.At.tangent {a l : F} (h : p.At x y) (hy0 : 2 * y ≠ 0) (hl : 3 * x ^ 2 + a = l * (2 * y)) :
    (p.tangent a).At (l ^ 2 - x - x) (-(l * (l ^ 2 - x - x - x) + y)) := by
  obtain ⟨hz, hx, hy⟩ := h
  have hslope : p.slope a = l * (2 * y * p.z ^ 4) := by
    rw [Jac.slope, hx]
    linear_combination p.z ^ 4 * hl
  have hz3 : 2 * (p.y * p.z) = 2 * y * p.z ^ 4 := by
    rw [hy]
    ring
  refine ⟨?_, ?_, ?_⟩
  · rw [Jac.tangent, hz3]
    exact mul_ne_zero hy0 (pow_ne_zero 4 hz)
  · simp only [Jac.tangent, hslope, hx, hy]
    ring
  · simp only [Jac.tangent, hslope, hx, hy]
    ring

/-- The chord point, with the slope `l` of the line through (x1, y1) and (x2, y2). -/
theorem Jac.At.chord {l : F} (hp : p.At x1 y1) (hq : q.At x2 y2) (hne : x1 ≠ x2) (hl : y1 - y2 = l * (x1 - x2)) :
    (p.chord q).At (l ^ 2 - x1 - x2) (-(l * (l ^ 2 - x1 - x2 - x1) + y1)) := by
  obtain ⟨hpz, hpx, hpy⟩ := hp
  obtain ⟨hqz, hqx, hqy⟩ := hq
  obtain rfl : y2 = y1 - l * (x1 - x2) := by linear_combination -hl
  refine ⟨?_, ?_, ?_⟩
  · have hh : q.crossX p - p.crossX q = (x2 - x1) * (p.z ^ 2 * q.z ^ 2) := by
      rw [Jac.crossX, Jac.crossX, hpx, hqx]
      ring
    rw [Jac.chord, hh]
    exact mul_ne_zero (mul_ne_zero hpz hqz) (mul_ne_zero (sub_ne_zero.mpr hne.symm)
      (mul_ne_zero (pow_ne_zero 2 hpz) (pow_ne_zero 2 hqz)))
  · simp only [Jac.chord, Jac.crossX, Jac.crossY, hpx, hqx, hpy, hqy]
    ring
  · simp only [Jac.chord, Jac.crossX, Jac.crossY, hpx, hqx, hpy, hqy]
    ring

theorem Jac.At.crossX_eq_iff (hp : p.At x1 y1) (hq : q.At x2 y2) : p.crossX q = q.crossX p ↔ x1 = x2 := by
  obtain ⟨hpz, hpx, -⟩ := hp
  obtain ⟨hqz, hqx, -⟩ := hq
  have hzz : p.z ^ 2 * q.z ^ 2 ≠ 0 := mul_ne_zero (pow_ne_zero 2 hpz) (pow_ne_zero 2 hqz)
  rw [Jac.crossX, Jac.crossX, hpx, hqx, mul_assoc, mul_assoc, mul_comm (q.z ^ 2), mul_left_inj' hzz]

theorem Jac.At.crossY_eq_iff (hp : p.At x1 y1) (hq : q.At x2 y2) : p.crossY q = q.crossY p ↔ y1 = y2 := by
  obtain ⟨hpz, -, hpy⟩ := hp
  obtain ⟨hqz, -, hqy⟩ := hq
  have hzz : p.z ^ 3 * q.z ^ 3 ≠ 0 := mul_ne_zero (pow_ne_zero 3 hpz) (pow_ne_zero 3 hqz)
  rw [Jac.crossY, Jac.crossY, hpy, hqy, mul_assoc, mul_assoc, mul_comm (q.z ^ 3), mul_left_inj' hzz]

variable [DecidableEq F]

theorem Jac.At.canonical (h : p.At x y) : p.canonical.At x y := by
  rwa [Jac.canonical, if_neg h.1]

theorem Jac.canonical_z_eq_zero (h : p.z = 0) : p.canonical.z = 0 := by rw [Jac.canonical, if_pos h, Jac.inf]

theorem Jac.At.neg (h : p.At x y) : p.neg.At x (-y) := by
  obtain ⟨hz, hx, hy⟩ := h
  exact Jac.At.canonical ⟨hz, hx, by simp [hy]⟩

/-- Doubling a point whose tangent is vertical. -/
theorem Jac.At.double_of_vertical {a : F} (h : p.At x y) (hy0 : 2 * y = 0) : (p.double a).z = 0 := by
  obtain ⟨hz, -, hy⟩ := h
  rw [Jac.double]
  split
  · rfl
  · refine Jac.canonical_z_eq_zero ?_
    rw [Jac.tangent, hy]
    linear_combination p.z ^ 4 * hy0

theorem Jac.At.double {a l : F} (h : p.At x y) (hy0 : 2 * y ≠ 0) (hl : 3 * x ^ 2 + a = l * (2 * y)) :
    (p.double a).At (l ^ 2 - x - x) (-(l * (l ^ 2 - x - x - x) + y)) := by
  have hne : ¬ (p.z = 0 ∨ p.y = 0) := by
    obtain ⟨hz, -, hy⟩ := h
    rw [hy]
    exact not_or.mpr ⟨hz, mul_ne_zero (right_ne_zero_of_mul hy0) (pow_ne_zero 3 hz)⟩
  rw [Jac.double, if_neg hne]
  exact (h.tangent hy0 hl).canonical

end

/-! ### The group of the curve -/

section
variable {a b : F}

theorem shortCurve_negY (x y : F) : (shortCurve a b).negY x y = -y := by simp [shortCurve, negY]

theorem shortCurve_addX (x1 x2 l : F) : (shortCurve a b).addX x1 x2 l = l ^ 2 - x1 - x2 := by simp [shortCurve, addX]

theorem shortCurve_addY (x1 x2 y1 l : F) :
    (shortCurve a b).addY x1 x2 y1 l = -(l * (l ^ 2 - x1 - x2 - x1) + y1) := by
  rw [addY, shortCurve_negY, negAddY, shortCurve_addX]

variable {p q : Jac F} {P Q : (shortCurve a b).Point}

theorem Jac.represents_zero : p.Represents a b 0 ↔ p.z = 0 := Iff.rfl

theorem Jac.represents_some {x y : F} {h : (shortCurve a b).Nonsingular x y} :
    p.Represents a b (.some x y h) ↔ p.At x y := Iff.rfl

theorem Jac.represents_inf : (Jac.inf : Jac F).Represents a b 0 := rfl

variable [DecidableEq F]

theorem shortCurve_slope_tangent {x y : F} (h : 2 * y ≠ 0) :
    3 * x ^ 2 + a = (shortCurve a b).slope x x y y * (2 * y) := by
  have hy : y - -y = 2 * y := by ring
  have hne : y ≠ (shortCurve a b).negY x y := by
    rwa [shortCurve_negY, ← sub_ne_zero, hy]
  rw [slope_of_Y_ne rfl hne, shortCurve_negY, hy, div_mul_cancel₀ _ h]
  simp [shortCurve]

theorem shortCurve_slope_chord {x1 y1 x2 y2 : F} (h : x1 ≠ x2) :
    y1 - y2 = (shortCurve a b).slope x1 x2 y1 y2 * (x1 - x2) := by
  rw [slope_of_X_ne h, div_mul_cancel₀ _ (sub_ne_zero.mpr h)]

theorem Jac.Represents.canonical (h : p.Represents a b P) : p.canonical.Represents a b P := by
  cases P with
  | zero => exact Jac.canonical_z_eq_zero h
  | some x y hxy => exact Jac.At.canonical h

theorem Jac.Represents.neg (h : p.Represents a b P) : p.neg.Represents a b (-P) := by
  cases P with
  | zero => exact Jac.canonical_z_eq_zero h
  | some x y hxy =>
    change p.neg.At x ((shortCurve a b).negY x y)
    rw [shortCurve_negY]
    exact Jac.At.neg h

/-- Doubling stands for P + P. -/
theorem Jac.Represents.double (h : p.Represents a b P) : (p.double a).Represents a b (P + P) := by
  cases P with
  | zero =>
    change (p.double a).z = 0
    rw [Jac.double, if_pos (.inl h), Jac.inf]
  | some x y hxy =>
    have hsum : y - -y = 2 * y := by ring
    by_cases hy : 2 * y = 0
    · rw [Point.add_self_of_Y_eq (by rwa [shortCurve_negY, ← sub_eq_zero, hsum])]
      exact Jac.At.double_of_vertical h hy
    · rw [Point.add_self_of_Y_ne (by rwa [shortCurve_negY, ← sub_ne_zero, hsum]), Jac.represents_some, shortCurve_addX,
        shortCurve_addY]
      exact Jac.At.double h hy (shortCurve_slope_tangent hy)

/-- Addition stands for P + Q. -/
theorem Jac.Represents.add (hp : p.Represents a b P) (hq : q.Represents a b Q) : (p.add a q).Represents a b (P + Q) := by
  cases P with
  | zero =>
    rw [Jac.add, if_pos (Jac.represents_zero.mp hp)]
    exact hq.canonical
  | some x1 y1 h1 =>
    cases Q with
    | zero =>
      rw [Jac.add, if_neg hp.1, if_pos (Jac.represents_zero.mp hq)]
      exact hp
    | some x2 y2 h2 =>
      rw [Jac.represents_some] at hp hq
      simp only [Jac.add, if_neg hp.1, if_neg hq.1, hp.crossX_eq_iff hq, hp.crossY_eq_iff hq]
      by_cases hx : x1 = x2
      · subst hx
        rw [if_pos rfl]
        by_cases hy : y1 = y2
        · subst hy
          rw [if_pos rfl]
          exact Jac.Represents.double (P := .some x1 y1 h1) hp
        · rw [if_neg hy, Point.add_of_Y_eq rfl ((Y_eq_of_X_eq h1.1 h2.1 rfl).resolve_left hy)]
          exact Jac.represents_inf
      · rw [if_neg hx, Point.add_of_X_ne hx, Jac.represents_some, shortCurve_addX, shortCurve_addY]
        exact (hp.chord hq hx (shortCurve_slope_chord hx)).canonical

end

end Sys2Proof.Machine
end

section
/-! The sweeps over the wNAF digits against the multiples in the group of the curve (45_curve.md section 3). -/

namespace Sys2Proof.Machine

section
variable {F : Type} [Field F] [DecidableEq F] {f : Fld} (m : f.Model F) {a b : F}

/-- A triple of the unit stands for a point of the curve. -/
def Fld.Model.StandsFor (b : F) (j : JPoint) (P : (shortCurve a b).Point) : Prop := ∃ p, m.pt p = j ∧ p.Represents a b P

variable {m}

/-! ### The operations of the unit -/

section
variable {j k : JPoint} {P Q : (shortCurve a b).Point}

omit [DecidableEq F] in
theorem standsFor_infinity : m.StandsFor b (infinity f) (0 : (shortCurve a b).Point) :=
  ⟨.inf, m.pt_inf.symm, Jac.represents_inf⟩

theorem Fld.Model.StandsFor.double (h : m.StandsFor b j P) : m.StandsFor b (Machine.double f (m.val a) j) (P + P) := by
  obtain ⟨p, rfl, hp⟩ := h
  exact ⟨_, (m.double a p).symm, hp.double⟩

theorem Fld.Model.StandsFor.add (hj : m.StandsFor b j P) (hk : m.StandsFor b k Q) :
    m.StandsFor b (Machine.addPoints f (m.val a) j k) (P + Q) := by
  obtain ⟨p, rfl, hp⟩ := hj
  obtain ⟨q, rfl, hq⟩ := hk
  exact ⟨_, (m.addPoints a p q).symm, hp.add hq⟩

theorem Fld.Model.StandsFor.neg (h : m.StandsFor b j P) : m.StandsFor b (Machine.negPoint f j) (-P) := by
  obtain ⟨p, rfl, hp⟩ := h
  exact ⟨_, (m.negPoint p).symm, hp.neg⟩

end

/-! ### The table of odd multiples (R288) -/

section
variable {j d : JPoint} {P D L : (shortCurve a b).Point}

theorem oddFrom_standsFor (hd : m.StandsFor b d D) : ∀ (n : Nat) {last : JPoint} {L : (shortCurve a b).Point},
    m.StandsFor b last L → ∀ i, i < n →
      m.StandsFor b ((oddFrom f (m.val a) d last n).getD i (infinity f)) (L + (i + 1) • D)
  | 0, _, _, _, i, hi => absurd hi (Nat.not_lt_zero i)
  | n + 1, last, L, hlast, 0, _ => by
    rw [zero_add, one_nsmul]
    exact hlast.add hd
  | n + 1, last, L, hlast, i + 1, hi => by
    have hnext := oddFrom_standsFor hd n (hlast.add hd) i (Nat.lt_of_succ_lt_succ hi)
    rw [succ_nsmul' D (i + 1), ← add_assoc]
    exact hnext

/-- The table holds the odd multiples. -/
theorem oddTable_standsFor (hj : m.StandsFor b j P) {w i : Nat} (hi : i < 2 ^ (w - 1)) :
    m.StandsFor b ((oddTable f (m.val a) j w).getD i (infinity f)) ((2 * i + 1) • P) := by
  cases i with
  | zero =>
    rw [Nat.mul_zero, zero_add, one_nsmul]
    exact hj
  | succ i =>
    have h := oddFrom_standsFor hj.double (2 ^ (w - 1) - 1) hj i (by omega)
    rwa [← two_nsmul, ← mul_nsmul', ← succ_nsmul', Nat.mul_comm] at h

end

/-! ### One digit -/

/-- A digit that the table of window `w` covers. -/
def DigitFits (w : Nat) (d : Int) : Prop := d ≠ 0 → d % 2 = 1 ∧ d.natAbs ≤ 2 ^ w - 1

theorem digitFits_wnaf {w : Nat} (hw : 1 ≤ w) (k : Nat) : ∀ d ∈ wnaf k w, DigitFits w d := wnaf_digits hw k

theorem digitFits_zero {w : Nat} : DigitFits w 0 := fun h => absurd rfl h

/-- The table entry of a digit. -/
theorem DigitFits.index {w : Nat} (hw : 1 ≤ w) {d : Int} (hd : DigitFits w d) (hne : d ≠ 0) :
    (d.natAbs - 1) / 2 < 2 ^ (w - 1) ∧ 2 * ((d.natAbs - 1) / 2) + 1 = d.natAbs := by
  obtain ⟨hodd, hle⟩ := hd hne
  have hpow : 2 ^ w = 2 * 2 ^ (w - 1) := by rw [← pow_succ', Nat.sub_add_cancel hw]
  have := Nat.two_pow_pos (w - 1)
  omega

section
variable {w : Nat} (hw : 1 ≤ w) {j acc : JPoint} {P A : (shortCurve a b).Point} (hj : m.StandsFor b j P)
include hw hj

theorem addDigit_standsFor (hacc : m.StandsFor b acc A) {d : Int} (hd : DigitFits w d) :
    m.StandsFor b (addDigit f (m.val a) (oddTable f (m.val a) j w) acc d) (A + d • P) := by
  rw [addDigit]
  by_cases h0 : d = 0
  · rw [if_pos h0, h0, zero_zsmul, add_zero]
    exact hacc
  obtain ⟨hlt, hval⟩ := hd.index hw h0
  have hentry := oddTable_standsFor hj hlt
  rw [hval] at hentry
  rw [if_neg h0]
  by_cases hpos : 0 < d
  · have hmul : d • P = d.natAbs • P := by rw [← natCast_zsmul, Int.natAbs_of_nonneg hpos.le]
    rw [if_pos hpos, hmul]
    exact hacc.add hentry
  · have hmul : d • P = -(d.natAbs • P) := by
      rw [← natCast_zsmul, Int.ofNat_natAbs_of_nonpos (not_lt.mp hpos), neg_zsmul, neg_neg]
    rw [if_neg hpos, hmul]
    exact hacc.add hentry.neg

end

/-! ### The sweeps -/

theorem sweep_append {table : List JPoint} {e : Elem} (xs ys : List Int) (acc : JPoint) :
    sweep f e table (xs ++ ys) acc = sweep f e table ys (sweep f e table xs acc) := by
  induction xs generalizing acc with
  | nil => rfl
  | cons x xs ih => exact ih _

theorem sweep2_append {t1 t2 : List JPoint} {e : Elem} (xs ys : List (Int × Int)) (acc : JPoint) :
    sweep2 f e t1 t2 (xs ++ ys) acc = sweep2 f e t1 t2 ys (sweep2 f e t1 t2 xs acc) := by
  induction xs generalizing acc with
  | nil => rfl
  | cons x xs ih => exact ih _

section
variable {w : Nat} (hw : 1 ≤ w) {j1 j2 : JPoint} {P Q : (shortCurve a b).Point} (h1 : m.StandsFor b j1 P)
  (h2 : m.StandsFor b j2 Q)
include hw h1

/-- The sweep over digits, least significant first in `ds`. -/
theorem sweep_standsFor : ∀ ds : List Int, (∀ d ∈ ds, DigitFits w d) →
    m.StandsFor b (sweep f (m.val a) (oddTable f (m.val a) j1 w) ds.reverse (infinity f)) (digitSum ds • P)
  | [], _ => by
    rw [digitSum, zero_zsmul]
    exact standsFor_infinity
  | d :: ds, hds => by
    obtain ⟨hd, hrest⟩ := List.forall_mem_cons.mp hds
    have hacc := (sweep_standsFor ds hrest).double
    have hsum : digitSum (d :: ds) • P = digitSum ds • P + digitSum ds • P + d • P := by
      rw [digitSum, add_zsmul, two_mul, add_zsmul, add_comm]
    rw [List.reverse_cons, sweep_append, hsum]
    exact addDigit_standsFor hw h1 hacc hd

include h2

/-- The sweep over pairs of digits, least significant first in `ds`. -/
theorem sweep2_standsFor : ∀ ds : List (Int × Int), (∀ d ∈ ds, DigitFits w d.1 ∧ DigitFits w d.2) →
    m.StandsFor b (sweep2 f (m.val a) (oddTable f (m.val a) j1 w) (oddTable f (m.val a) j2 w) ds.reverse (infinity f))
      (digitSum (ds.map Prod.fst) • P + digitSum (ds.map Prod.snd) • Q)
  | [], _ => by
    rw [List.map_nil, List.map_nil, digitSum, zero_zsmul, zero_zsmul, add_zero]
    exact standsFor_infinity
  | (d1, d2) :: ds, hds => by
    obtain ⟨⟨hd1, hd2⟩, hrest⟩ := List.forall_mem_cons.mp hds
    have hacc := (sweep2_standsFor ds hrest).double
    have hadd := addDigit_standsFor hw h2 (addDigit_standsFor hw h1 hacc hd1) hd2
    have hsum : ∀ (n k : Int), (d1 + 2 * n) • P + (d2 + 2 * k) • Q = n • P + k • Q + (n • P + k • Q) + d1 • P + d2 • Q := by
      intro n k
      rw [add_zsmul, add_zsmul, two_mul, two_mul, add_zsmul, add_zsmul]
      abel
    rw [List.reverse_cons, sweep2_append, List.map_cons, List.map_cons, digitSum, digitSum, hsum]
    exact hadd

end

/-! ### The scalar multiples -/

theorem digitSum_padDigits (n : Nat) (ds : List Int) : digitSum (padDigits n ds) = digitSum ds := by
  have hzeros : ∀ n, digitSum (List.replicate n 0) = 0 := fun n => by
    induction n with
    | zero => rfl
    | succ n ih => rw [List.replicate_succ, digitSum, ih, mul_zero, add_zero]
  rw [padDigits]
  induction ds generalizing n with
  | nil => exact hzeros _
  | cons d ds ih =>
    have h := ih (n - 1)
    rw [List.cons_append, digitSum, digitSum, List.length_cons, show n - (ds.length + 1) = n - 1 - ds.length by omega, h]

theorem padDigits_length {n : Nat} {ds : List Int} (h : ds.length ≤ n) : (padDigits n ds).length = n := by
  rw [padDigits, List.length_append, List.length_replicate]
  omega

theorem digitFits_padDigits {n w : Nat} {ds : List Int} (h : ∀ d ∈ ds, DigitFits w d) :
    ∀ d ∈ padDigits n ds, DigitFits w d := by
  intro d hd
  rcases List.mem_append.mp hd with hmem | hmem
  · exact h d hmem
  · rw [List.eq_of_mem_replicate hmem]
    exact digitFits_zero

section
variable {w : Nat} (hw : 1 ≤ w) {j1 j2 : JPoint} {P Q : (shortCurve a b).Point} (h1 : m.StandsFor b j1 P)
  (h2 : m.StandsFor b j2 Q)
include hw h1

theorem scalarMul_standsFor (k : Nat) : m.StandsFor b (scalarMul f (m.val a) j1 k w) (k • P) := by
  have h := sweep_standsFor hw h1 (wnaf k w) (digitFits_wnaf hw k)
  rwa [digitSum_wnaf hw, natCast_zsmul] at h

include h2

theorem scalarMul2_standsFor (k1 k2 : Nat) :
    m.StandsFor b (scalarMul2 f (m.val a) j1 k1 j2 k2 w) (k1 • P + k2 • Q) := by
  rw [scalarMul2]
  have hlen1 := padDigits_length (le_max_left (wnaf k1 w).length (wnaf k2 w).length)
  have hlen2 := padDigits_length (le_max_right (wnaf k1 w).length (wnaf k2 w).length)
  have h := sweep2_standsFor hw h1 h2 (List.zip (padDigits (max (wnaf k1 w).length (wnaf k2 w).length) (wnaf k1 w))
    (padDigits (max (wnaf k1 w).length (wnaf k2 w).length) (wnaf k2 w))) fun d hd =>
      ⟨digitFits_padDigits (digitFits_wnaf hw k1) _ (List.of_mem_zip hd).1,
        digitFits_padDigits (digitFits_wnaf hw k2) _ (List.of_mem_zip hd).2⟩
  rwa [List.map_fst_zip (hlen1.trans hlen2.symm).le, List.map_snd_zip (hlen2.trans hlen1.symm).le, digitSum_padDigits,
    digitSum_padDigits, digitSum_wnaf hw, digitSum_wnaf hw, natCast_zsmul, natCast_zsmul] at h

end

end

/-! ### Over a prime field -/

section
variable {p : Nat} (hp : 0 < p)

theorem primeModel_val (x : ZMod p) : (Fld.primeModel p hp).val x = [x.val] := rfl

theorem primeModel_cast (x : ZMod p) : (((Fld.primeModel p hp).val x).headD 0 : ZMod p) = x := by
  have : NeZero p := ⟨hp.ne'⟩
  exact ZMod.natCast_zmod_val x

theorem primeModel_val_natCast {a : Nat} (ha : a < p) : (Fld.primeModel p hp).val (a : ZMod p) = [a] := by
  rw [primeModel_val, ZMod.val_natCast, Nat.mod_eq_of_lt ha]

theorem primeModel_zero_iff (x : ZMod p) : (Fld.primeModel p hp).val x = (Fld.prime p).zero ↔ x = 0 := by
  rw [(Fld.primeModel p hp).zero, (Fld.primeModel p hp).val_inj]

end

/-- Settles O49: the operations of the unit stand for those of the group, the table holds the odd multiples, and the digits
sum to the scalar. -/
theorem scalarMultiplesOverPrimeFields : Obligations.ScalarMultiplesOverPrimeFields := by
  intro p hprime a b ha g curve represents
  have hp := hprime.out.pos
  let m := Fld.primeModel p hp
  have hrep : ∀ (j : JPoint) (q : curve.Point), represents j q ↔ m.StandsFor (a := (a : ZMod p)) (b : ZMod p) j q := by
    intro j q
    have hiff : ∀ J : Jac (ZMod p), represents (m.pt J) q ↔ J.Represents (a : ZMod p) (b : ZMod p) q := by
      intro J
      refine (and_iff_right (m.pt_ok J)).trans ?_
      cases q with
      | zero => exact primeModel_zero_iff hp J.z
      | some x y h =>
        simp only [m.pt_x, m.pt_y, m.pt_z, Jac.Represents, Jac.At, m, primeModel_cast, ne_eq, primeModel_zero_iff, g]
    constructor
    · intro h
      obtain ⟨J, rfl⟩ := m.exists_of_pointOk h.1
      exact ⟨J, rfl, (hiff J).mp h⟩
    · rintro ⟨J, rfl, h⟩
      exact (hiff J).mpr h
  intro j1 j2 q1 q2 h1 h2 k1 k2 w hw
  rw [hrep] at h1 h2
  rw [hrep, hrep, ← primeModel_val_natCast hp ha]
  exact ⟨scalarMul_standsFor hw h1 k1, scalarMul2_standsFor hw h1 h2 k1 k2⟩

end Sys2Proof.Machine
end
